-- ==== Sys2Proof/Word.lean ====
section
/-! DEFINITION. The word types of the machine (00_scope.md R11: 32-bit words; access in bytes) and the
5-bit register index (30_encoding.md R177) as a number below 32. -/

namespace Sys2Proof

/-- A 32-bit word (R11). -/
abbrev Word := BitVec 32

/-- One byte of memory. -/
abbrev Byte := BitVec 8

/-- The number of a general, COP0 or GTE register, 0..31 (R40, R50, R420). -/
abbrev Reg := Fin 32

end Sys2Proof
end

