-- ==== Sys2Proof/Config.lean ====
section
/-! DEFINITION. The parameters of 00_scope.md R12 as plain data, and the free values of R14 (`draw()`).
The default of every parameter is in Machine/Defaults.lean; State carries one `Config` (log 1). -/

namespace Sys2Proof

/-- The peripheral windows of 20_memory.md R131, orders 3 to 15. -/
inductive Peripheral where
  | expansion1 | memoryControl1 | serialPorts | memoryControl2 | interruptController | dma | timers
  | cdrom | gpu | mdec | spu | expansion2 | expansion3
  deriving DecidableEq, Repr

/-- Who answers a bus range (R109): RAM, ROM or a peripheral outside the block (R113). -/
inductive Device where
  | ram
  | rom
  | peripheral (p : Peripheral)
  deriving DecidableEq, Repr

/-- One entry of `BUS_RANGES` (R109): a physical base, a size in bytes, the device that answers. -/
structure BusRange where
  base : Nat
  size : Nat
  device : Device
  deriving DecidableEq, Repr

/-- `UNALIGNED_MODE` (R350, R351). -/
inductive UnalignedMode where
  | approx
  | exact
  deriving DecidableEq, Repr

/-- `HAZARD_POLICY` (70_reset_and_hazards.md R624). -/
inductive HazardPolicy where
  | immediate
  | refuse
  deriving DecidableEq, Repr

/-- `GTE_MOVE_MODE` (45_gte_regs.md R423). -/
inductive GteMoveMode where
  | raw
  | field
  deriving DecidableEq, Repr

/-- The 22 GTE commands of 30_encoding.md R183. -/
inductive GteCmd where
  | rtps | nclip | op | dpcs | intpl | mvmva | ncds | cdp | ncdt | nccs | cc | ncs | nct | sqr | dcpl
  | dpct | avsz3 | avsz4 | rtpt | gpf | gpl | ncct
  deriving DecidableEq, Repr

/-- The parameters of R12. `RAM_SIZE` is the size of the RAM row of `busRanges` (R131); `ROM_IMAGE` is the
field `rom` of State. -/
structure Config where
  /-- `PRID` (R57, R616). -/
  prid : Word
  /-- `SEG_MASK`, one mask for each value of address bits 31:29 (R101). -/
  segMask : Vector Word 8
  /-- `BUS_RANGES`, in priority order (R109, R131). -/
  busRanges : List BusRange
  /-- `SCRATCH_BASE` (R106). -/
  scratchBase : Nat
  /-- `SCRATCH_SIZE` (R106). -/
  scratchSize : Nat
  /-- `CACHECTRL_ADDR` (R108). -/
  cacheCtrlAddr : Nat
  unalignedMode : UnalignedMode
  hazardPolicy : HazardPolicy
  /-- `IRQ_FROM_LINE` (R569) as its truth table: bit l is the value at `lineStatus = l` (log 2). -/
  irqTable : BitVec 256
  /-- `SW_INTERRUPTS` (R572). -/
  swInterrupts : Bool
  /-- `GTE_IMPLEMENTED` (R443). -/
  gteImplemented : List GteCmd
  gteMoveMode : GteMoveMode
  /-- `HALT_PC` (R314), named by a claim; none: the run has no end (log 11). -/
  haltPc : Option Word
  deriving DecidableEq, Repr

/-- The values the model leaves free (`draw()`, R14): the n-th free word. It has no body, so no proof can
see a value of it. Read by device reads only (R113). -/
opaque Config.freeWord : Nat → Word

end Sys2Proof
end

