-- ==== Sys2Proof/Machine/Defaults.lean ====
section
/-! DEFINITION. The defaults of the parameters of 00_scope.md R12. -/

namespace Sys2Proof.Machine

/-- `PRID` (R12, R57). -/
def defaultPrid : Word := 0x00000002

/-- `SEG_MASK`: kuseg 0-3, kseg0, kseg1, kseg2 6-7 (R101). -/
def defaultSegMask : Vector Word 8 :=
  #v[0xFFFFFFFF, 0xFFFFFFFF, 0xFFFFFFFF, 0xFFFFFFFF, 0x7FFFFFFF, 0x1FFFFFFF, 0xFFFFFFFF, 0xFFFFFFFF]

/-- `RAM_SIZE` (R12, R131). -/
def defaultRamSize : Nat := 0x00200000

/-- `BUS_RANGES` in priority order (R131). -/
def defaultBusRanges : List BusRange :=
  [⟨0x00000000, defaultRamSize, .ram⟩,
   ⟨0x1FC00000, 0x00080000, .rom⟩,
   ⟨0x1F000000, 0x00800000, .peripheral .expansion1⟩,
   ⟨0x1F801000, 0x24, .peripheral .memoryControl1⟩,
   ⟨0x1F801040, 0x20, .peripheral .serialPorts⟩,
   ⟨0x1F801060, 0x4, .peripheral .memoryControl2⟩,
   ⟨0x1F801070, 0x8, .peripheral .interruptController⟩,
   ⟨0x1F801080, 0x80, .peripheral .dma⟩,
   ⟨0x1F801100, 0x30, .peripheral .timers⟩,
   ⟨0x1F801800, 0x4, .peripheral .cdrom⟩,
   ⟨0x1F801810, 0x8, .peripheral .gpu⟩,
   ⟨0x1F801820, 0x8, .peripheral .mdec⟩,
   ⟨0x1F801C00, 0x400, .peripheral .spu⟩,
   ⟨0x1F802000, 0x2000, .peripheral .expansion2⟩,
   ⟨0x1FA00000, 0x00200000, .peripheral .expansion3⟩]

/-- `IRQ_FROM_LINE` by default: true at every line value but 0 (R569). -/
def defaultIrqTable : BitVec 256 := ~~~1#256

/-- `GTE_IMPLEMENTED` by default: all 22 commands (R443). -/
def defaultGteImplemented : List GteCmd :=
  [.rtps, .nclip, .op, .dpcs, .intpl, .mvmva, .ncds, .cdp, .ncdt, .nccs, .cc] ++
  [.ncs, .nct, .sqr, .dcpl, .dpct, .avsz3, .avsz4, .rtpt, .gpf, .gpl, .ncct]

/-- Every parameter at its default (R12); no `HALT_PC`, which a claim names (log 11). -/
def defaultConfig : Config where
  prid := defaultPrid
  segMask := defaultSegMask
  busRanges := defaultBusRanges
  scratchBase := 0x1F800000
  scratchSize := 0x400
  cacheCtrlAddr := 0xFFFE0130
  unalignedMode := .approx
  hazardPolicy := .immediate
  irqTable := defaultIrqTable
  swInterrupts := false
  gteImplemented := defaultGteImplemented
  gteMoveMode := .raw
  haltPc := none

end Sys2Proof.Machine
end

