-- ==== Sys2Proof/Machine/State.lean ====
section
/-! DEFINITION. The state of the machine as plain data (10_state.md), the reasons a step can stop, and the
state right after reset (70_reset_and_hazards.md R610-R621). -/

namespace Sys2Proof.Machine

/-- The width of a memory access in bytes: 1, 2 or 4 (R11, R118). -/
inductive Width where
  | byte
  | half
  | word
  deriving DecidableEq, Repr

/-- A byte memory: pairs of offset and byte, offsets strictly rising, no pair whose byte is what an unlisted
offset reads as (`Memory.fill`, `Memory.wf` in Machine/Memory.lean). -/
abbrev Memory := List Host.Cell

/-- One entry of the diagnostic list (R62). -/
inductive Diagnostic where
  | unhandledRead (paddr : Word) (width : Width)
  | unhandledWrite (paddr : Word) (width : Width) (value : Word)
  | romWrite (paddr : Word) (width : Width) (value : Word)
  | isolatedStore (vaddr : Word) (width : Width) (value : Word)
  | unimplemented (word : Word) (curPC : Word)
  | cop0Unsupported (word : Word) (curPC : Word)
  | gteUnknown (word : Word) (curPC : Word)
  deriving DecidableEq, Repr

/-- A device access, recorded as an event (R113, log 10). -/
inductive BusEvent where
  | read (device : Peripheral) (paddr : Word) (width : Width) (value : Word)
  | write (device : Peripheral) (paddr : Word) (width : Width) (value : Word)
  deriving DecidableEq, Repr

/-- The inputs one step samples (R9, R63). -/
structure StepInput where
  hold : Bool
  lineStatus : BitVec 8
  deriving DecidableEq, Repr

/-- The GTE register bank: 32 data and 32 control registers (R420). -/
structure Gte where
  d : Vector Word 32
  c : Vector Word 32
  deriving DecidableEq, Repr

/-- Everything the spec gives the machine, as listed in INVENTORY.md. -/
structure State where
  /-- The parameters of R12; no step writes them (log 1). -/
  cfg : Config
  /-- The general registers; register 0 is read through `getReg` (R40, R41). -/
  regs : Vector Word 32
  /-- The address of the next instruction to fetch (R44). -/
  pc : Word
  /-- The address of the instruction being executed (R45). -/
  curPC : Word
  /-- The word being executed, fetched from `curPC` (R300, R396; log 14). -/
  word : Word
  hi : Word
  lo : Word
  /-- A taken branch or jump waits for its delay slot (R48). -/
  branchPending : Bool
  branchTarget : Word
  /-- The instruction being executed is in a delay slot (R49). -/
  inDelaySlot : Bool
  /-- The COP0 registers (R50, R51). -/
  cop0 : Vector Word 32
  gte : Gte
  /-- RAM by offset in its range (R111). -/
  ram : Memory
  /-- ROM by offset in its range (R112): the parameter `ROM_IMAGE`. -/
  rom : Memory
  /-- The scratchpad by offset (R106). -/
  scratch : Memory
  /-- The cache-control register (R108). -/
  cacheCtrl : Word
  /-- The diagnostic list, oldest first (R62). -/
  diag : List Diagnostic
  /-- The device accesses, oldest first (R113, log 10). -/
  events : List BusEvent
  /-- The value last passed to `signalInterrupt` (R63). -/
  lineStatus : BitVec 8
  /-- The inputs of the steps to come, oldest first; when it is empty a step is not held and samples
  `lineStatus` (log 3; empty at reset, log 24). -/
  inputs : List StepInput
  /-- How many free values device reads have taken (log 9). -/
  draws : Nat
  /-- The destination of the previous instruction, if it was a load (R64). -/
  lastLoadDest : Option Reg
  /-- The destination of the previous instruction, if it was lwl or lwr (R631, log 12). -/
  lastLwlLwr : Option Reg
  /-- Instructions since the last mtc2, ctc2 or lwc2 (R64). -/
  gteWriteAge : Option Nat
  /-- Instructions since the last mfhi or mflo (R64). -/
  hiloReadAge : Option Nat
  deriving DecidableEq, Repr

/-- Why a run stops without a next state. -/
inductive Fault where
  /-- Raised by `step` when pc = HALT_PC: the observed run ends there and no step is executed (R300, R314).
  Safe: the model says nothing of the steps the hardware would go on with. -/
  | runEnded
  deriving DecidableEq, Repr

/-- What the model has no meaning for. Each is a `refuse(...)` of the spec, and safe: no claim covers a run
that ends in one. -/
inductive Refusal where
  /-- Answered by exec for an instruction whose meaning is not written; none is left. Safe. -/
  | notModelled (mnemonic : String)
  /-- `step`: a branch or jump fetched in a delay slot (R312; MIPS-I leaves it unpredictable). Safe. -/
  | branchInDelaySlot
  /-- A bus access whose last byte is outside the range of its first byte (R110), and an access past the end
  of the scratchpad or the cache-control register (R106, R108). Safe. -/
  | accessSpansRange
  /-- swl or swr in exact mode to a peripheral window (R119, R352). Safe. -/
  | partialStoreToDevice
  /-- `step` under HAZARD_POLICY = refuse: the instruction reads the destination of the load before it
  (R625, R631). Safe. -/
  | loadDelayHazard
  /-- `step` under HAZARD_POLICY = refuse: a GTE command within two instructions of a GTE register write
  (R627, R631). Safe. -/
  | gteWriteHazard
  /-- `step` under HAZARD_POLICY = refuse: HI or LO written within two instructions of mfhi or mflo
  (R628, R631). Safe. -/
  | hiLoHazard
  deriving DecidableEq, Repr

/-- COP0 after reset: Status 0x00600000 (R615) and PRId = PRID (R616); every other register, which R617 leaves
a draw, 0 (DESIGN CHOICE, unsafe, log 4). -/
def resetCop0 (prid : Word) : Vector Word 32 :=
  ((Vector.replicate 32 (0 : Word)).set 12 0x00600000).set 15 prid

/-- The machine right after reset, every parameter at its default (R610-R621; logs 4 to 12 name the values the
spec leaves open). The empty queue of inputs is the model's choice too: R8 leaves the hold and the line of every
step open, and R621 gives only the line 0 of a host that never signalled; a run from this very state is never held
and samples line 0 throughout (log 24, DESIGN CHOICE, unsafe). -/
def State.reset : State where
  cfg := defaultConfig
  regs := Vector.replicate 32 0
  pc := 0xBFC00000
  curPC := 0
  word := 0
  hi := 0
  lo := 0
  branchPending := false
  branchTarget := 0
  inDelaySlot := false
  cop0 := resetCop0 defaultPrid
  gte := ⟨Vector.replicate 32 0, Vector.replicate 32 0⟩
  ram := []
  rom := []
  scratch := []
  cacheCtrl := 0
  diag := []
  events := []
  lineStatus := 0
  inputs := []
  draws := 0
  lastLoadDest := none
  lastLwlLwr := none
  gteWriteAge := none
  hiloReadAge := none

end Sys2Proof.Machine
end

