-- ==== Sys2Proof/Machine/Memory.lean ====
section
/-! DEFINITION. Byte memories: reading and writing one byte and little-endian groups of bytes (20_memory.md
R106, R111, R116, R117), and the canonical form every operation keeps. -/

namespace Sys2Proof.Machine

/-- What an offset that a memory does not list reads as. R619 leaves RAM and the scratchpad a draw at reset and
the ROM image to the host: DESIGN CHOICE 0, unsafe (logs 5 and 7). -/
def Memory.fill : Byte := 0

/-- The canonical form: offsets strictly rising, and no byte listed that an unlisted offset reads as. -/
abbrev Memory.wf (m : Memory) : Prop :=
  m.Pairwise (fun c c' => c.1 < c'.1) ∧ ∀ c ∈ m, c.2 ≠ Memory.fill

/-- The byte at offset `a`. -/
def Memory.read : Memory → Nat → Byte
  | [], _ => Memory.fill
  | (k, b) :: rest, a => if k = a then b else Memory.read rest a

/-- The memory with byte `v` at offset `a`, in canonical form when it was before. -/
def Memory.write : Memory → Nat → Byte → Memory
  | [], a, v => if v = Memory.fill then [] else [(a, v)]
  | (k, b) :: rest, a, v =>
    if a < k then
      if v = Memory.fill then (k, b) :: rest else (a, v) :: (k, b) :: rest
    else if a = k then
      if v = Memory.fill then rest else (k, v) :: rest
    else
      (k, b) :: Memory.write rest a v

/-- The `n` bytes from offset `a` as a word, the first the least significant, upper bits zero (R111, R117). -/
def Memory.readLE (m : Memory) (a : Nat) : Nat → Word
  | 0 => 0
  | n + 1 => (Memory.read m a).setWidth 32 ||| (Memory.readLE m (a + 1) n <<< 8)

/-- Stores the low `n` bytes of `v` from offset `a`, the least significant at the lowest (R111, R117). -/
def Memory.writeLE (m : Memory) (a : Nat) : Nat → Word → Memory
  | 0, _ => m
  | n + 1, v => Memory.writeLE (Memory.write m a (v.setWidth 8)) (a + 1) n (v >>> 8)

/-- Stores a list of bytes from offset `a`: the host's "load N bytes at physical offset" (R112, R619). -/
def Memory.load (m : Memory) (a : Nat) : List Byte → Memory
  | [] => m
  | b :: bs => Memory.load (Memory.write m a b) (a + 1) bs

end Sys2Proof.Machine
end

