-- ==== Sys2Proof/Machine/Flags.lean ====
section
/-! DEFINITION. Flag computations. The CPU core has no flags (10_state.md R60): its one test is the signed
overflow of add, addi and sub (40_alu.md R221). The GTE's FLAG helpers are those of 46_gte_commands.md
R478-R484: each gives a value and the FLAG bits (45_gte_regs.md R426) it sets. -/

namespace Sys2Proof.Machine

/-! ## Signed overflow (R221) -/

/-- The exact integer is no 32-bit signed value. -/
def overflows (v : Int) : Bool := decide (v < -2147483648 ∨ 2147483647 < v)

def addOverflows (a b : Word) : Bool := overflows (a.toInt + b.toInt)
def subOverflows (a b : Word) : Bool := overflows (a.toInt - b.toInt)

/-! ## The GTE's helpers -/

/-- One of the three components i = 1, 2, 3 of a GTE vector. -/
inductive Lane where
  | l1
  | l2
  | l3
  deriving DecidableEq, Repr

/-- The spec's index i of a component. -/
def Lane.index : Lane → Nat
  | .l1 => 1
  | .l2 => 2
  | .l3 => 3

/-- An exact value and the FLAG bits its computation sets. -/
structure Checked where
  val : Int
  flag : Word
  deriving DecidableEq, Repr

/-- A word with bit `n` set when `b` holds. -/
def flagBit (n : Nat) (b : Bool) : Word := if b then 1#32 <<< n else 0

/-- Wrapped to a 44-bit signed value (R478). -/
def wrap44 (v : Int) : Int := (v + 8796093022208) % 17592186044416 - 8796093022208

/-- `A_i`: the 44-bit stage check of MAC1-MAC3 (R478). -/
def checkA (i : Lane) (v : Int) : Checked :=
  ⟨wrap44 v,
    flagBit (31 - i.index) (decide (v > 8796093022207)) |||
      flagBit (28 - i.index) (decide (v < -8796093022208))⟩

/-- `F`: the MAC0 check; the value is not wrapped (R479). -/
def checkF (v : Int) : Checked :=
  ⟨v, flagBit 16 (decide (v > 2147483647)) ||| flagBit 15 (decide (v < -2147483648))⟩

/-- `clamp` (R14). -/
def clamp (v lo hi : Int) : Int := if v < lo then lo else if hi < v then hi else v

/-- A value clamped to lo..hi, with FLAG bit `n` set when it was outside. -/
def saturate (n : Nat) (lo hi v : Int) : Checked :=
  ⟨clamp v lo hi, flagBit n (decide (v < lo ∨ hi < v))⟩

/-- The lower limit of IR1-IR3: 0 with lm = 1, else -0x8000 (R480). -/
def irLow (lm : Bool) : Int := if lm then 0 else -32768

/-- `Lm_B_i`: IR1-IR3 (R480). -/
def limB (i : Lane) (lm : Bool) (v : Int) : Checked := saturate (25 - i.index) (irLow lm) 32767 v

/-- `Lm_C_i`: the colour FIFO's bytes (R481). -/
def limC (i : Lane) (v : Int) : Checked := saturate (22 - i.index) 0 255 v

/-- `Lm_D`: SZ3 and OTZ (R482). -/
def limD (v : Int) : Checked := saturate 18 0 65535 v

/-- `Lm_G_1`: SX2 (R483). -/
def limG1 (v : Int) : Checked := saturate 14 (-1024) 1023 v

/-- `Lm_G_2`: SY2 (R483). -/
def limG2 (v : Int) : Checked := saturate 13 (-1024) 1023 v

/-- `Lm_H`: IR0 (R484). -/
def limH (v : Int) : Checked := saturate 12 0 4096 v

/-- The bits whose OR is FLAG bit 31: 30-23 and 18-13 (R428). -/
def flagErrorMask : Word := 0x7F87E000

/-- FLAG with bit 31 computed from the error bits (R428, R477). -/
def closeFlag (flag : Word) : Word :=
  (flag &&& 0x7FFFFFFF) ||| flagBit 31 (decide (flag &&& flagErrorMask ≠ 0))

end Sys2Proof.Machine
end

