-- ==== Sys2Proof/Machine/Operands.lean ====
section
/-! DEFINITION. Operand forms: immediates, shift amounts, effective addresses, branch and jump targets, link
values, access widths and the partial-word merges (30_encoding.md R173-R176, 42_control.md R309, R310,
43_loadstore.md R340, R351, R352). -/

namespace Sys2Proof.Machine

/-- `sext_16` to a word (R173). -/
def sext16 (imm : BitVec 16) : Word := imm.signExtend 32

/-- `zext_16` to a word (R173). -/
def zext16 (imm : BitVec 16) : Word := imm.setWidth 32

/-- `imm << 16` (lui, R173, R245). -/
def upper16 (imm : BitVec 16) : Word := imm.setWidth 32 <<< 16

/-- The shift amount a register gives: its bits 4:0 (R176). -/
def shiftAmount (v : Word) : BitVec 5 := v.setWidth 5

/-- 1 or 0, the result of a comparison (R230). -/
def boolWord (b : Bool) : Word := if b then 1 else 0

/-- The effective address: base plus signed displacement, modulo 2^32 (R340). -/
def effAddr (base : Word) (imm : BitVec 16) : Word := base + sext16 imm

/-- A PC-relative branch's target, from the advanced pc (R174, R309). -/
def branchTo (pc : Word) (imm : BitVec 16) : Word := pc + (sext16 imm <<< 2)

/-- An absolute jump's target, from the advanced pc (R175, R309). -/
def jumpTo (pc : Word) (target : BitVec 26) : Word :=
  pc.extractLsb' 28 4 ++ target ++ (0#2 : BitVec 2)

/-- The link value: the address after the delay slot, from the advanced pc (R310). -/
def linkValue (pc : Word) : Word := pc + 4

/-- The number of bytes of an access (R118). -/
def Width.bytes : Width → Nat
  | .byte => 1
  | .half => 2
  | .word => 4

/-- The bits an access of this width moves (R117). -/
def Width.mask : Width → Word
  | .byte => 0xFF
  | .half => 0xFFFF
  | .word => 0xFFFFFFFF

/-- The address is no multiple of the width (R121). -/
def misaligned (n : Width) (ea : Word) : Bool := ea.toNat % n.bytes != 0

/-- `ea & 0xFFFFFFFC`, the aligned word of lwl, lwr, swl, swr (R350). -/
def alignedWord (ea : Word) : Word := ea &&& 0xFFFFFFFC

/-- `8 * ea[1:0]`, the bit offset of an unaligned access in its word (R351). -/
def laneShift (ea : Word) : Nat := 8 * (ea.toNat % 4)

def sext8 (v : Word) : Word := (v.setWidth 8).signExtend 32
def zext8 (v : Word) : Word := (v.setWidth 8).setWidth 32
def sextHalf (v : Word) : Word := (v.setWidth 16).signExtend 32
def zextHalf (v : Word) : Word := (v.setWidth 16).setWidth 32

/-- lwl in exact mode: memory word `w` merged into register value `r` (R351). -/
def mergeLwl (ea r w : Word) : Word :=
  (r &&& ((0x00FFFFFF : Word) >>> laneShift ea)) ||| (w <<< (24 - laneShift ea))

/-- lwr in exact mode (R351). -/
def mergeLwr (ea r w : Word) : Word :=
  (r &&& ((0xFFFFFF00 : Word) <<< (24 - laneShift ea))) ||| (w >>> laneShift ea)

/-- swl in exact mode: register value `r` merged into memory word `m` (R352). -/
def mergeSwl (ea r m : Word) : Word :=
  (m &&& ((0xFFFFFF00 : Word) <<< laneShift ea)) ||| (r >>> (24 - laneShift ea))

/-- swr in exact mode (R352). -/
def mergeSwr (ea r m : Word) : Word :=
  (m &&& ((0x00FFFFFF : Word) >>> (24 - laneShift ea))) ||| (r <<< laneShift ea)

end Sys2Proof.Machine
end

