-- ==== Sys2Proof/Machine/Ops.lean ====
section
/-! DEFINITION. The shared operations: reading and writing registers, the COP0 fields, taking an exception and
returning from one (60_exceptions.md R562-R568, 44_system.md R387), address translation, the data path, the
fetch path and the bus dispatcher (20_memory.md R100-R134), and the host's operations (00_scope.md R9). -/

namespace Sys2Proof.Machine

/-- What an instruction's meaning answers. -/
abbrev Result := Host.Outcome State Fault Refusal

/-! ## General registers -/

/-- `x[r]`; register 0 reads 0 (R41). -/
def State.getReg (s : State) (r : Reg) : Word := if r = 0 then 0 else s.regs[r]

/-- `x[r] <- v`; a write to register 0 is discarded (R41). -/
def State.setReg (s : State) (r : Reg) (v : Word) : State :=
  if r = 0 then s else { s with regs := s.regs.set r v }

/-! ## COP0 registers (R50, R51) -/

def State.getCop0 (s : State) (n : Reg) : Word := s.cop0[n]
def State.setCop0 (s : State) (n : Reg) (v : Word) : State := { s with cop0 := s.cop0.set n v }

def State.badVAddr (s : State) : Word := s.getCop0 8
def State.status (s : State) : Word := s.getCop0 12
def State.cause (s : State) : Word := s.getCop0 13
def State.epc (s : State) : Word := s.getCop0 14

/-- Status.IEc, the current interrupt enable (R52). -/
def State.iec (s : State) : Bool := s.status.getLsbD 0

/-- Status.IsC, isolate cache (R52, R125). -/
def State.isolated (s : State) : Bool := s.status.getLsbD 16

/-- Status.BEV, boot exception vectors (R52, R565). -/
def State.bev (s : State) : Bool := s.status.getLsbD 22

/-! ## Diagnostics (R62) -/

def State.record (s : State) (d : Diagnostic) : State := { s with diag := s.diag ++ [d] }

/-! ## Taking an exception and returning from one -/

/-- The named exception codes of R560. Only Int, AdEL, AdES, Sys, Bp and Ov are raised in this block (R561,
R577, R579). -/
inductive ExcCode where
  | int | mod | tlbl | tlbs | adEL | adES | ibe | dbe | sys | bp | ri | cpu | ov
  deriving DecidableEq, Repr

/-- The value of Cause.ExcCode (R560). -/
def ExcCode.number : ExcCode → BitVec 5
  | .int => 0
  | .mod => 1
  | .tlbl => 2
  | .tlbs => 3
  | .adEL => 4
  | .adES => 5
  | .ibe => 6
  | .dbe => 7
  | .sys => 8
  | .bp => 9
  | .ri => 10
  | .cpu => 11
  | .ov => 12

/-- Cause with BD (bit 31) and ExcCode (bits 6:2) replaced, every other bit kept (R562, R563). -/
def causeOnEntry (cause : Word) (code : ExcCode) (bd : Bool) : Word :=
  (cause &&& ~~~(0x8000007C : Word)) ||| (boolWord bd <<< 31) ||| (code.number.setWidth 32 <<< 2)

/-- Status with its low six bits pushed: shifted left by 2, masked to six bits (R564). -/
def statusPush (status : Word) : Word := (status &&& ~~~(0x3F : Word)) ||| ((status <<< 2) &&& 0x3F)

/-- Status with its stack popped: bits 3:0 from bits 5:2, bits 5:4 kept (R387). -/
def statusPop (status : Word) : Word := (status &&& 0xFFFFFFF0) ||| ((status >>> 2) &&& 0xF)

/-- The exception vector Status.BEV selects (R565). -/
def exceptionVector (bev : Bool) : Word := if bev then 0xBFC00180 else 0x80000080

/-- The resume address an exception saves: the branch's address from a delay slot, else the current
instruction's (R563). -/
def exceptionPc (s : State) : Word := if s.inDelaySlot then s.curPC - 4 else s.curPC

/-- The hazard bookkeeping as reset and every exception leave it (R621, R631). -/
def State.clearHazards (s : State) : State :=
  { s with lastLoadDest := none, lastLwlLwr := none, gteWriteAge := none, hiloReadAge := none }

/-- BadVAddr on an address error; every other exception leaves it (R567). -/
def State.setBadVAddr (s : State) (badVAddr : Option Word) : State :=
  match badVAddr with
  | some a => s.setCop0 8 a
  | none => s

/-- Exception entry, `Enter(code, badVAddr?)` of R562: BadVAddr on an address error (R567), EPC and Cause.BD
(R563), Cause.ExcCode (R560), the Status push (R564), the pending branch cleared (R566), pc at the vector
(R565). Nothing else changes (R585) but the model's hazard bookkeeping (R631). -/
def State.enter (s : State) (code : ExcCode) (badVAddr : Option Word) : State :=
  let t := (((s.setBadVAddr badVAddr).setCop0 14 (exceptionPc s)).setCop0 13
    (causeOnEntry s.cause code s.inDelaySlot)).setCop0 12 (statusPush s.status)
  { t.clearHazards with branchPending := false, pc := exceptionVector s.bev }

/-- `raise` of R14: the exception is taken and the instruction ends. -/
def raise (code : ExcCode) (badVAddr : Option Word) (s : State) : Result := .next (s.enter code badVAddr)

/-- Return from exception: rfe's effect, the Status stack popped (R387, R576). -/
def State.leave (s : State) : State := s.setCop0 12 (statusPop s.status)

/-! ## Branch state (R48, R308) -/

/-- A taken branch or jump: the target waits for the delay slot (R308). -/
def State.takeBranch (s : State) (target : Word) : State :=
  { s with branchTarget := target, branchPending := true }

/-- A conditional branch: taken to the PC-relative target when `c` holds, else no branch state changes
(R309, R311). -/
def State.branchIf (s : State) (c : Bool) (imm : BitVec 16) : State :=
  if c then s.takeBranch (branchTo s.pc imm) else s

/-! ## Translation and the bus dispatcher -/

/-- `paddr = vaddr & SEG_MASK[vaddr[31:29]]` (R101). -/
def translate (cfg : Config) (vaddr : Word) : Word := vaddr &&& cfg.segMask.get (vaddr.extractLsb' 29 3).toFin

/-- The tag translation gives an address: its segment is cacheable (R101, R102). No cache is modelled (R130), so no
instruction reads it. -/
def cacheable (vaddr : Word) : Bool := decide (vaddr.extractLsb' 29 3 ≤ 4#3)

/-- The range holds the physical address (R109). -/
def rangeHolds (r : BusRange) (paddr : Word) : Bool :=
  decide (r.base ≤ paddr.toNat ∧ paddr.toNat < r.base + r.size)

/-- The first range of `BUS_RANGES` that holds the physical address (R109). -/
def rangeAt (cfg : Config) (paddr : Word) : Option BusRange := cfg.busRanges.find? (fun r => rangeHolds r paddr)

/-- The access of `n` bytes at the physical address ends beyond the range (R110). -/
def spansRange (r : BusRange) (paddr : Word) (n : Width) : Bool :=
  decide (r.base + r.size < paddr.toNat + n.bytes)

/-- What a read answers: its value and the state after it, or a refusal. -/
abbrev ReadResult := Except Refusal (Word × State)

/-- What a write answers. -/
abbrev WriteResult := Except Refusal State

/-- A read of a peripheral window: a free value of the access's width, recorded as an event (R113, log 9,
log 10). -/
def deviceRead (dev : Peripheral) (paddr : Word) (n : Width) (s : State) : Word × State :=
  let v := Config.freeWord s.draws &&& n.mask
  (v, { s with draws := s.draws + 1, events := s.events ++ [.read dev paddr n v] })

/-- A write to a peripheral window: an event, and no state of the block changes (R113). -/
def deviceWrite (dev : Peripheral) (paddr : Word) (n : Width) (v : Word) (s : State) : State :=
  { s with events := s.events ++ [.write dev paddr n (v &&& n.mask)] }

/-- `BusAccess` for a read (R109-R114). -/
def busRead (paddr : Word) (n : Width) (s : State) : ReadResult :=
  match rangeAt s.cfg paddr with
  | none => .ok (0, s.record (.unhandledRead paddr n))
  | some r =>
    if spansRange r paddr n then .error .accessSpansRange
    else match r.device with
      | .ram => .ok (Memory.readLE s.ram (paddr.toNat - r.base) n.bytes, s)
      | .rom => .ok (Memory.readLE s.rom (paddr.toNat - r.base) n.bytes, s)
      | .peripheral dev => .ok (deviceRead dev paddr n s)

/-- `BusAccess` for a write (R109-R113, R115). -/
def busWrite (paddr : Word) (n : Width) (v : Word) (s : State) : WriteResult :=
  match rangeAt s.cfg paddr with
  | none => .ok (s.record (.unhandledWrite paddr n v))
  | some r =>
    if spansRange r paddr n then .error .accessSpansRange
    else match r.device with
      | .ram => .ok { s with ram := Memory.writeLE s.ram (paddr.toNat - r.base) n.bytes v }
      | .rom => .ok (s.record (.romWrite paddr n v))
      | .peripheral dev => .ok (deviceWrite dev paddr n v s)

/-! ## CPU-local memories and the data path -/

/-- The physical address is in the scratchpad window (R104, R106). -/
def inScratch (cfg : Config) (paddr : Word) : Bool :=
  decide (cfg.scratchBase ≤ paddr.toNat ∧ paddr.toNat < cfg.scratchBase + cfg.scratchSize)

/-- The physical address is in the cache-control window (R104, R108). -/
def inCacheCtrl (cfg : Config) (paddr : Word) : Bool :=
  decide (cfg.cacheCtrlAddr ≤ paddr.toNat ∧ paddr.toNat < cfg.cacheCtrlAddr + 4)

/-- `ScratchAccess` for a read (R106). -/
def scratchRead (off : Nat) (n : Width) (s : State) : ReadResult :=
  if s.cfg.scratchSize < off + n.bytes then .error .accessSpansRange
  else .ok (Memory.readLE s.scratch off n.bytes, s)

/-- `ScratchAccess` for a write (R106). -/
def scratchWrite (off : Nat) (n : Width) (v : Word) (s : State) : WriteResult :=
  if s.cfg.scratchSize < off + n.bytes then .error .accessSpansRange
  else .ok { s with scratch := Memory.writeLE s.scratch off n.bytes v }

/-- The `n` bytes of a register at byte offset `off`, little-endian (R108). -/
def wordLane (w : Word) (off : Nat) (n : Width) : Word := (w >>> (8 * off)) &&& n.mask

/-- The register with its `n` bytes at byte offset `off` replaced (R108). -/
def setWordLane (w : Word) (off : Nat) (n : Width) (v : Word) : Word :=
  (w &&& ~~~(n.mask <<< (8 * off))) ||| ((v &&& n.mask) <<< (8 * off))

/-- `CacheCtrlAccess` for a read (R108). -/
def cacheCtrlRead (off : Nat) (n : Width) (s : State) : ReadResult :=
  if 4 < off + n.bytes then .error .accessSpansRange else .ok (wordLane s.cacheCtrl off n, s)

/-- `CacheCtrlAccess` for a write (R108). -/
def cacheCtrlWrite (off : Nat) (n : Width) (v : Word) (s : State) : WriteResult :=
  if 4 < off + n.bytes then .error .accessSpansRange
  else .ok { s with cacheCtrl := setWordLane s.cacheCtrl off n v }

/-- `MemRead` (R104, R134). -/
def memRead (vaddr : Word) (n : Width) (s : State) : ReadResult :=
  let paddr := translate s.cfg vaddr
  if inScratch s.cfg paddr then scratchRead (paddr.toNat - s.cfg.scratchBase) n s
  else if inCacheCtrl s.cfg paddr then cacheCtrlRead (paddr.toNat - s.cfg.cacheCtrlAddr) n s
  else busRead paddr n s

/-- `MemWrite` (R104, R125, R134). -/
def memWrite (vaddr : Word) (n : Width) (v : Word) (s : State) : WriteResult :=
  let paddr := translate s.cfg vaddr
  if inScratch s.cfg paddr then scratchWrite (paddr.toNat - s.cfg.scratchBase) n v s
  else if inCacheCtrl s.cfg paddr then cacheCtrlWrite (paddr.toNat - s.cfg.cacheCtrlAddr) n v s
  else if s.isolated then .ok (s.record (.isolatedStore vaddr n v))
  else busWrite paddr n v s

/-- `Fetch`: the bus, never the scratchpad or the cache-control register (R105). -/
def fetch (vaddr : Word) (s : State) : ReadResult := busRead (translate s.cfg vaddr) .word s

/-- A data access to this virtual address reaches a peripheral window (R113, R119). -/
def reachesDevice (s : State) (vaddr : Word) : Bool :=
  let paddr := translate s.cfg vaddr
  if inScratch s.cfg paddr || inCacheCtrl s.cfg paddr then false
  else match rangeAt s.cfg paddr with
    | some ⟨_, _, .peripheral _⟩ => true
    | _ => false

/-! ## Loads and stores (R341) -/

/-- An aligned load: AdEL when misaligned, else the access, then `deliver` its value (R121, R341). -/
def loadWith (n : Width) (ea : Word) (deliver : Word → State → State) (s : State) : Result :=
  if misaligned n ea then raise .adEL (some ea) s
  else match memRead ea n s with
    | .ok (v, t) => .next (deliver v t)
    | .error e => .refused e

/-- An aligned store of the low bytes of `v`: AdES when misaligned, else the access (R121, R341). -/
def storeWith (n : Width) (ea v : Word) (s : State) : Result :=
  if misaligned n ea then raise .adES (some ea) s
  else match memWrite ea n (v &&& n.mask) s with
    | .ok t => .next t
    | .error e => .refused e

/-- lwl and lwr: the aligned word whole in approx mode (R350), merged into rt's value in exact mode (R351). -/
def loadUnaligned (ea : Word) (rt : Reg) (merge : Word → Word → Word → Word) (s : State) : Result :=
  match memRead (alignedWord ea) .word s with
  | .ok (w, t) =>
    match s.cfg.unalignedMode with
    | .approx => .next (t.setReg rt w)
    | .exact => .next (t.setReg rt (merge ea (s.getReg rt) w))
  | .error e => .refused e

/-- swl and swr in exact mode: the merged word is written where the aligned word was read, in one step; a
peripheral window is refused (R119, R352, log 16). -/
def storePartial (ea r : Word) (merge : Word → Word → Word → Word) (s : State) : Result :=
  if reachesDevice s (alignedWord ea) then .refused .partialStoreToDevice
  else match memRead (alignedWord ea) .word s with
    | .ok (m, t) =>
      match memWrite (alignedWord ea) .word (merge ea r m) t with
      | .ok u => .next u
      | .error e => .refused e
    | .error e => .refused e

/-- swl and swr: the whole of rt to the aligned word in approx mode (R350), else `storePartial`. -/
def storeUnaligned (ea : Word) (rt : Reg) (merge : Word → Word → Word → Word) (s : State) : Result :=
  match s.cfg.unalignedMode with
  | .approx =>
    match memWrite (alignedWord ea) .word (s.getReg rt) s with
    | .ok t => .next t
    | .error e => .refused e
  | .exact => storePartial ea (s.getReg rt) merge s

/-! ## Reading memory without an access -/

/-- The byte a data access at this physical address would find in the scratchpad, the cache-control register,
RAM or ROM; none in a peripheral window and where no range is. Used by statements, read by no instruction. -/
def State.peek (s : State) (paddr : Word) : Option Byte :=
  if inScratch s.cfg paddr then some (Memory.read s.scratch (paddr.toNat - s.cfg.scratchBase))
  else if inCacheCtrl s.cfg paddr then
    some ((wordLane s.cacheCtrl (paddr.toNat - s.cfg.cacheCtrlAddr) .byte).setWidth 8)
  else match rangeAt s.cfg paddr with
    | some ⟨base, _, .ram⟩ => some (Memory.read s.ram (paddr.toNat - base))
    | some ⟨base, _, .rom⟩ => some (Memory.read s.rom (paddr.toNat - base))
    | _ => none

/-! ## The host's operations (R9, R112, R610, R619) -/

def State.getProgramCounter (s : State) : Word := s.pc
def State.getGeneralRegister (s : State) (r : Reg) : Word := s.getReg r
def State.getHi (s : State) : Word := s.hi
def State.getLo (s : State) : Word := s.lo

/-- `signalInterrupt(lineStatus)` (R9, R63). -/
def State.signalInterrupt (s : State) (line : BitVec 8) : State := { s with lineStatus := line }

/-- "load N bytes at physical offset" into RAM (R112, R619). -/
def State.loadRam (s : State) (off : Nat) (bytes : List Byte) : State :=
  { s with ram := Memory.load s.ram off bytes }

/-- The same into ROM: how `ROM_IMAGE` is populated (R112). -/
def State.loadRom (s : State) (off : Nat) (bytes : List Byte) : State :=
  { s with rom := Memory.load s.rom off bytes }

/-- The host's reset of a running machine, between steps (R610): every field as R611-R621 say, the parameters,
the ROM image and what is outside the block (the interrupt line, the inputs to come, the device events and the
free values taken) kept (R619, R623). -/
def State.hostReset (s : State) : State :=
  { State.reset with
    cfg := s.cfg, cop0 := resetCop0 s.cfg.prid, rom := s.rom, events := s.events,
    lineStatus := s.lineStatus, inputs := s.inputs, draws := s.draws }

end Sys2Proof.Machine
end

