-- ==== Sys2Proof/Machine/Alu.lean ====
section
/-! DEFINITION. The ALU instructions (40_alu.md R220-R245). Sources are read before the destination is written
(00_scope.md R15); only add, sub and addi can raise, and only Overflow (R220, R221). -/

namespace Sys2Proof.Machine

/-- The shape of an instruction whose whole effect is one register's new value (R220). -/
def writeReg (r : Reg) (v : Word) (s : State) : Result := .next (s.setReg r v)

/-- The shape of add, sub and addi: Overflow instead of the write when the exact result does not fit (R221). -/
def writeRegOrOverflow (r : Reg) (v : Word) (trap : Bool) (s : State) : Result :=
  if trap then raise .ov none s else writeReg r v s

/-! ## Register-register (R222-R231) -/

def execAdd (rd rs rt : Reg) (s : State) : Result :=
  writeRegOrOverflow rd (s.getReg rs + s.getReg rt) (addOverflows (s.getReg rs) (s.getReg rt)) s

def execAddu (rd rs rt : Reg) (s : State) : Result := writeReg rd (s.getReg rs + s.getReg rt) s

def execSub (rd rs rt : Reg) (s : State) : Result :=
  writeRegOrOverflow rd (s.getReg rs - s.getReg rt) (subOverflows (s.getReg rs) (s.getReg rt)) s

def execSubu (rd rs rt : Reg) (s : State) : Result := writeReg rd (s.getReg rs - s.getReg rt) s

def execAnd (rd rs rt : Reg) (s : State) : Result := writeReg rd (s.getReg rs &&& s.getReg rt) s

def execOr (rd rs rt : Reg) (s : State) : Result := writeReg rd (s.getReg rs ||| s.getReg rt) s

def execXor (rd rs rt : Reg) (s : State) : Result := writeReg rd (s.getReg rs ^^^ s.getReg rt) s

def execNor (rd rs rt : Reg) (s : State) : Result := writeReg rd (~~~(s.getReg rs ||| s.getReg rt)) s

def execSlt (rd rs rt : Reg) (s : State) : Result :=
  writeReg rd (boolWord (decide ((s.getReg rs).toInt < (s.getReg rt).toInt))) s

def execSltu (rd rs rt : Reg) (s : State) : Result :=
  writeReg rd (boolWord (decide ((s.getReg rs).toNat < (s.getReg rt).toNat))) s

/-! ## Shifts (R232-R237) -/

def execSll (rd rt : Reg) (shamt : BitVec 5) (s : State) : Result :=
  writeReg rd (s.getReg rt <<< shamt.toNat) s

def execSrl (rd rt : Reg) (shamt : BitVec 5) (s : State) : Result :=
  writeReg rd (s.getReg rt >>> shamt.toNat) s

def execSra (rd rt : Reg) (shamt : BitVec 5) (s : State) : Result :=
  writeReg rd ((s.getReg rt).sshiftRight shamt.toNat) s

def execSllv (rd rt rs : Reg) (s : State) : Result :=
  writeReg rd (s.getReg rt <<< (shiftAmount (s.getReg rs)).toNat) s

def execSrlv (rd rt rs : Reg) (s : State) : Result :=
  writeReg rd (s.getReg rt >>> (shiftAmount (s.getReg rs)).toNat) s

def execSrav (rd rt rs : Reg) (s : State) : Result :=
  writeReg rd ((s.getReg rt).sshiftRight (shiftAmount (s.getReg rs)).toNat) s

/-! ## Immediate (R238-R245) -/

def execAddi (rt rs : Reg) (imm : BitVec 16) (s : State) : Result :=
  writeRegOrOverflow rt (s.getReg rs + sext16 imm) (addOverflows (s.getReg rs) (sext16 imm)) s

def execAddiu (rt rs : Reg) (imm : BitVec 16) (s : State) : Result :=
  writeReg rt (s.getReg rs + sext16 imm) s

def execSlti (rt rs : Reg) (imm : BitVec 16) (s : State) : Result :=
  writeReg rt (boolWord (decide ((s.getReg rs).toInt < (sext16 imm).toInt))) s

/-- The immediate is sign-extended, then compared unsigned (R241). -/
def execSltiu (rt rs : Reg) (imm : BitVec 16) (s : State) : Result :=
  writeReg rt (boolWord (decide ((s.getReg rs).toNat < (sext16 imm).toNat))) s

def execAndi (rt rs : Reg) (imm : BitVec 16) (s : State) : Result :=
  writeReg rt (s.getReg rs &&& zext16 imm) s

def execOri (rt rs : Reg) (imm : BitVec 16) (s : State) : Result :=
  writeReg rt (s.getReg rs ||| zext16 imm) s

def execXori (rt rs : Reg) (imm : BitVec 16) (s : State) : Result :=
  writeReg rt (s.getReg rs ^^^ zext16 imm) s

def execLui (rt : Reg) (imm : BitVec 16) (s : State) : Result := writeReg rt (upper16 imm) s

end Sys2Proof.Machine
end

