-- ==== Sys2Proof/Machine/Control.lean ====
section
/-! DEFINITION. Jumps and branches (42_control.md R308-R325). While one executes, pc is already the delay
slot's address (R304); the transfer itself happens in the next step. -/

namespace Sys2Proof.Machine

/-! ## Jumps (R315-R318) -/

def execJ (target : BitVec 26) (s : State) : Result := .next (s.takeBranch (jumpTo s.pc target))

def execJal (target : BitVec 26) (s : State) : Result :=
  .next ((s.takeBranch (jumpTo s.pc target)).setReg 31 (linkValue s.pc))

def execJr (rs : Reg) (s : State) : Result := .next (s.takeBranch (s.getReg rs))

/-- The target is the old value of rs, also when rd = rs (R307, R318). -/
def execJalr (rd rs : Reg) (s : State) : Result :=
  .next ((s.takeBranch (s.getReg rs)).setReg rd (linkValue s.pc))

/-! ## Conditional branches (R319-R325) -/

def execBeq (rs rt : Reg) (imm : BitVec 16) (s : State) : Result :=
  .next (s.branchIf (s.getReg rs == s.getReg rt) imm)

def execBne (rs rt : Reg) (imm : BitVec 16) (s : State) : Result :=
  .next (s.branchIf (s.getReg rs != s.getReg rt) imm)

def execBlez (rs : Reg) (imm : BitVec 16) (s : State) : Result :=
  .next (s.branchIf (decide ((s.getReg rs).toInt ≤ 0)) imm)

def execBgtz (rs : Reg) (imm : BitVec 16) (s : State) : Result :=
  .next (s.branchIf (decide (0 < (s.getReg rs).toInt)) imm)

def execBltz (rs : Reg) (imm : BitVec 16) (s : State) : Result :=
  .next (s.branchIf (decide ((s.getReg rs).toInt < 0)) imm)

def execBgez (rs : Reg) (imm : BitVec 16) (s : State) : Result :=
  .next (s.branchIf (decide (0 ≤ (s.getReg rs).toInt)) imm)

/-- The condition uses the old x[31]; the link is written taken or not (R325). -/
def execBltzal (rs : Reg) (imm : BitVec 16) (s : State) : Result :=
  .next ((s.branchIf (decide ((s.getReg rs).toInt < 0)) imm).setReg 31 (linkValue s.pc))

/-- As `execBltzal`, for the condition of bgez (R325). -/
def execBgezal (rs : Reg) (imm : BitVec 16) (s : State) : Result :=
  .next ((s.branchIf (decide (0 ≤ (s.getReg rs).toInt)) imm).setReg 31 (linkValue s.pc))

end Sys2Proof.Machine
end

