-- ==== Sys2Proof/Machine/GteRegs.lean ====
section
/-! DEFINITION. The GTE register bank as moves and commands see it (45_gte_regs.md R420-R433), and the COP2
moves, lwc2 and swc2 (R434-R440). -/

namespace Sys2Proof.Machine

/-! ## The bank and its reading functions (R421) -/

def Gte.getD (g : Gte) (n : Reg) : Word := g.d[n]
def Gte.getC (g : Gte) (n : Reg) : Word := g.c[n]
def Gte.setD (g : Gte) (n : Reg) (v : Word) : Gte := { g with d := g.d.set n v }
def Gte.setC (g : Gte) (n : Reg) (v : Word) : Gte := { g with c := g.c.set n v }

/-- FLAG, control register 31 (R426). -/
def Gte.flag (g : Gte) : Word := g.getC 31

/-- Bits 15:0 as a signed number. -/
def s16 (w : Word) : Int := (w.extractLsb' 0 16).toInt

/-- Bits 31:16 as a signed number. -/
def hi16s (w : Word) : Int := (w.extractLsb' 16 16).toInt

/-- Bits 15:0 as an unsigned number. -/
def u16 (w : Word) : Int := (w.extractLsb' 0 16).toNat

/-- Byte `k` as an unsigned number. -/
def u8 (k : Nat) (w : Word) : Int := (w.extractLsb' (8 * k) 8).toNat

/-- A 16-bit value kept sign-extended in a register (R421, R424, R425). -/
def keepSigned16 (v : Word) : Word := (v.extractLsb' 0 16).signExtend 32

/-- A 16-bit value kept zero-extended in a register (R421, R424, R425). -/
def keepUnsigned16 (v : Word) : Word := (v.extractLsb' 0 16).setWidth 32

/-! ## The FIFOs (R429, R430, R431) -/

/-- SXY0 <- SXY1, SXY1 <- SXY2, SXY2 <- v (R429). -/
def Gte.pushSxy (g : Gte) (v : Word) : Gte :=
  ((g.setD 12 (g.getD 13)).setD 13 (g.getD 14)).setD 14 v

/-- SZ0 <- SZ1, SZ1 <- SZ2, SZ2 <- SZ3, SZ3 <- v (R430). -/
def Gte.pushSz (g : Gte) (v : Word) : Gte :=
  (((g.setD 16 (g.getD 17)).setD 17 (g.getD 18)).setD 18 (g.getD 19)).setD 19 v

/-- RGB0 <- RGB1, RGB1 <- RGB2, RGB2 <- v (R431). -/
def Gte.pushRgb (g : Gte) (v : Word) : Gte :=
  ((g.setD 20 (g.getD 21)).setD 21 (g.getD 22)).setD 22 v

/-! ## What a move reads and writes (R423-R425, R427, R432, R433) -/

/-- The bits from bit `n - 1` downwards that equal `b`, until the first that does not. -/
def leadingRun (b : Bool) (v : Word) : Nat → Nat
  | 0 => 0
  | n + 1 => if v.getLsbD n = b then leadingRun b v n + 1 else 0

/-- `LeadingCount`: how many leading bits equal bit 31 (R433). -/
def leadingCount (v : Word) : Word := BitVec.ofNat 32 (leadingRun (v.getLsbD 31) v 32)

/-- An IR value as a 5-bit colour component: `clamp(v >>s 7, 0, 0x1F)` (R424). -/
def colour5 (v : Int) : Word := BitVec.ofInt 32 (clamp (v >>> 7) 0 31)

/-- What IRGB and ORGB read in field mode (R424, R432). -/
def Gte.irAsColour (g : Gte) : Word :=
  colour5 (s16 (g.getD 9)) ||| (colour5 (s16 (g.getD 10)) <<< 5) ||| (colour5 (s16 (g.getD 11)) <<< 10)

/-- `GteReadD` in field mode (R424). -/
def Gte.readFieldD (g : Gte) (n : Reg) : Word :=
  match n.val with
  | 1 | 3 | 5 | 8 | 9 | 10 | 11 => keepSigned16 (g.getD n)
  | 7 | 16 | 17 | 18 | 19 => keepUnsigned16 (g.getD n)
  | 15 => g.getD 14
  | 28 | 29 => g.irAsColour
  | 31 => leadingCount (g.getD 30)
  | _ => g.getD n

/-- `GteReadC` in field mode; H reads back sign-extended (R424). -/
def Gte.readFieldC (g : Gte) (n : Reg) : Word :=
  match n.val with
  | 4 | 12 | 20 | 26 | 27 | 29 | 30 => keepSigned16 (g.getC n)
  | _ => g.getC n

/-- `GteReadD` (R424). -/
def Gte.readD (g : Gte) (mode : GteMoveMode) (n : Reg) : Word :=
  match mode with
  | .raw => g.getD n
  | .field => g.readFieldD n

/-- `GteReadC` (R424). -/
def Gte.readC (g : Gte) (mode : GteMoveMode) (n : Reg) : Word :=
  match mode with
  | .raw => g.getC n
  | .field => g.readFieldC n

/-- A 5-bit colour component from bit `lo` of a word, scaled by 2^7 (R425, R432). -/
def irOfColour5 (v : Word) (lo : Nat) : Word := (v.extractLsb' lo 5).setWidth 32 <<< 7

/-- `GteWriteD` in field mode (R425). -/
def Gte.writeFieldD (g : Gte) (n : Reg) (v : Word) : Gte :=
  match n.val with
  | 1 | 3 | 5 | 8 | 9 | 10 | 11 => g.setD n (keepSigned16 v)
  | 7 | 16 | 17 | 18 | 19 => g.setD n (keepUnsigned16 v)
  | 15 => g.pushSxy v
  | 28 => ((g.setD 9 (irOfColour5 v 0)).setD 10 (irOfColour5 v 5)).setD 11 (irOfColour5 v 10)
  | 29 | 31 => g
  | _ => g.setD n v

/-- A write of FLAG by a move in field mode: bits 30:12 kept, bit 31 recomputed (R427). -/
def flagWritten (v : Word) : Word := (v &&& 0x7FFFF000) ||| flagBit 31 (decide (v &&& flagErrorMask ≠ 0))

/-- `GteWriteC` in field mode (R425). -/
def Gte.writeFieldC (g : Gte) (n : Reg) (v : Word) : Gte :=
  match n.val with
  | 4 | 12 | 20 | 27 | 29 | 30 => g.setC n (keepSigned16 v)
  | 26 => g.setC n (keepUnsigned16 v)
  | 31 => g.setC n (flagWritten v)
  | _ => g.setC n v

/-- `GteWriteD` (R425). -/
def Gte.writeD (g : Gte) (mode : GteMoveMode) (n : Reg) (v : Word) : Gte :=
  match mode with
  | .raw => g.setD n v
  | .field => g.writeFieldD n v

/-- `GteWriteC` (R425). -/
def Gte.writeC (g : Gte) (mode : GteMoveMode) (n : Reg) (v : Word) : Gte :=
  match mode with
  | .raw => g.setC n v
  | .field => g.writeFieldC n v

def State.gteReadD (s : State) (n : Reg) : Word := s.gte.readD s.cfg.gteMoveMode n
def State.gteReadC (s : State) (n : Reg) : Word := s.gte.readC s.cfg.gteMoveMode n

def State.gteWriteD (s : State) (n : Reg) (v : Word) : State :=
  { s with gte := s.gte.writeD s.cfg.gteMoveMode n v }

def State.gteWriteC (s : State) (n : Reg) (v : Word) : State :=
  { s with gte := s.gte.writeC s.cfg.gteMoveMode n v }

/-! ## COP2 moves, loads and stores (R435-R440) -/

def execMfc2 (rt rd : Reg) (s : State) : Result := .next (s.setReg rt (s.gteReadD rd))

def execCfc2 (rt rd : Reg) (s : State) : Result := .next (s.setReg rt (s.gteReadC rd))

def execMtc2 (rt rd : Reg) (s : State) : Result := .next (s.gteWriteD rd (s.getReg rt))

def execCtc2 (rt rd : Reg) (s : State) : Result := .next (s.gteWriteC rd (s.getReg rt))

/-- rt names a GTE data register (R439). -/
def execLwc2 (rt : Reg) (imm : BitVec 16) (rs : Reg) (s : State) : Result :=
  loadWith .word (effAddr (s.getReg rs) imm) (fun v t => t.gteWriteD rt v) s

/-- rt names a GTE data register (R440). -/
def execSwc2 (rt : Reg) (imm : BitVec 16) (rs : Reg) (s : State) : Result :=
  storeWith .word (effAddr (s.getReg rs) imm) (s.gteReadD rt) s

end Sys2Proof.Machine
end

