-- ==== Sys2Proof/Machine/GteOps.lean ====
section
/-! DEFINITION. The shared computations of the GTE commands (46_gte_commands.md R477, R485-R491). All arithmetic
is on unbounded integers; `v >>> k` is floor division by 2^k. Within one step of a body the three components
are computed from the values the step started with, then written together (R477). -/

namespace Sys2Proof.Machine

/-! ## Vectors and matrices (R421, R422) -/

/-- Three components. -/
structure Triple (α : Type) where
  x : α
  y : α
  z : α
  deriving DecidableEq, Repr

def Triple.get {α : Type} (t : Triple α) : Lane → α
  | .l1 => t.x
  | .l2 => t.y
  | .l3 => t.z

/-- The triple of what `f` gives each component: "for i in 1..3". -/
def eachLane {α : Type} (f : Lane → α) : Triple α := ⟨f .l1, f .l2, f .l3⟩

abbrev Vec := Triple Int
abbrev Matrix := Triple Vec

def zeroVec : Vec := ⟨0, 0, 0⟩

/-- `V0`, `V1`, `V2` by k (R421). -/
def Gte.vertex (g : Gte) : Lane → Vec
  | .l1 => ⟨s16 (g.getD 0), hi16s (g.getD 0), s16 (g.getD 1)⟩
  | .l2 => ⟨s16 (g.getD 2), hi16s (g.getD 2), s16 (g.getD 3)⟩
  | .l3 => ⟨s16 (g.getD 4), hi16s (g.getD 4), s16 (g.getD 5)⟩

/-- (IR1, IR2, IR3). -/
def Gte.irVec (g : Gte) : Vec := ⟨s16 (g.getD 9), s16 (g.getD 10), s16 (g.getD 11)⟩

def Gte.ir0 (g : Gte) : Int := s16 (g.getD 8)

/-- (MAC1, MAC2, MAC3). -/
def Gte.macVec (g : Gte) : Vec := ⟨(g.getD 25).toInt, (g.getD 26).toInt, (g.getD 27).toInt⟩

/-- The colour bytes (R, G, B) of a word (R421). -/
def colourVec (w : Word) : Vec := ⟨u8 0 w, u8 1 w, u8 2 w⟩

/-- RGBC's (R, G, B). -/
def Gte.rgbc (g : Gte) : Vec := colourVec (g.getD 6)

/-- A 3 x 3 matrix of 16-bit elements in five control registers (R422). -/
def matrixOf (a b c d e : Word) : Matrix :=
  ⟨⟨s16 a, hi16s a, s16 b⟩, ⟨hi16s b, s16 c, hi16s c⟩, ⟨s16 d, hi16s d, s16 e⟩⟩

/-- RT, the rotation matrix. -/
def Gte.rotation (g : Gte) : Matrix := matrixOf (g.getC 0) (g.getC 1) (g.getC 2) (g.getC 3) (g.getC 4)

/-- LLM, the light matrix. -/
def Gte.light (g : Gte) : Matrix := matrixOf (g.getC 8) (g.getC 9) (g.getC 10) (g.getC 11) (g.getC 12)

/-- LCM, the light colour matrix. -/
def Gte.lightColour (g : Gte) : Matrix := matrixOf (g.getC 16) (g.getC 17) (g.getC 18) (g.getC 19) (g.getC 20)

/-- TR, the translation vector. -/
def Gte.translation (g : Gte) : Vec := ⟨(g.getC 5).toInt, (g.getC 6).toInt, (g.getC 7).toInt⟩

/-- BK, the background colour. -/
def Gte.background (g : Gte) : Vec := ⟨(g.getC 13).toInt, (g.getC 14).toInt, (g.getC 15).toInt⟩

/-- FC, the far colour. -/
def Gte.farColour (g : Gte) : Vec := ⟨(g.getC 21).toInt, (g.getC 22).toInt, (g.getC 23).toInt⟩

/-! ## Writing results -/

/-- `trunc32` (46_gte_commands.md, preamble). -/
def trunc32 (v : Int) : Word := BitVec.ofInt 32 v

/-- ORs bits into FLAG: "OR-accumulates saturation indications". -/
def Gte.orFlag (g : Gte) (bits : Word) : Gte := g.setC 31 (g.flag ||| bits)

/-- The FLAG bits of three computations. -/
def flagsOf (t : Triple Checked) : Word := t.x.flag ||| t.y.flag ||| t.z.flag

/-- The shift of a command: 12 * sf (R441). -/
def shiftOf (sf : Bool) : Nat := if sf then 12 else 0

/-- `MAC_i <- trunc32(s_i >>s shift)` for the three components, and their FLAG bits. -/
def Gte.storeMacs (g : Gte) (sf : Bool) (t : Triple Checked) : Gte :=
  (((g.setD 25 (trunc32 (t.x.val >>> shiftOf sf))).setD 26 (trunc32 (t.y.val >>> shiftOf sf))).setD 27
    (trunc32 (t.z.val >>> shiftOf sf))).orFlag (flagsOf t)

/-- `IR_i <- t_i` for the three components, and their FLAG bits. -/
def Gte.storeIrs (g : Gte) (t : Triple Checked) : Gte :=
  (((g.setD 9 (trunc32 t.x.val)).setD 10 (trunc32 t.y.val)).setD 11 (trunc32 t.z.val)).orFlag (flagsOf t)

/-- MAC0 <- trunc32(v), with the FLAG bits of `F` (R479). -/
def Gte.storeMac0 (g : Gte) (v : Checked) : Gte := (g.setD 24 (trunc32 v.val)).orFlag v.flag

/-! ## The division (R485, R486) -/

/-- The reciprocal table (R485); natural subtraction stops at 0, as `max(0, ...)` says. -/
def unr (i : Nat) : Nat := (0x40000 / (i + 0x100) + 1) / 2 - 0x101

/-- How many bits a number below 2^16 needs (R486). -/
def bitLength (v : Nat) : Nat := if v = 0 then 0 else Nat.log2 v + 1

/-- The divide overflows: the quotient saturates and FLAG bit 17 is set (R486). -/
def divideOverflows (h sz : Nat) : Bool := decide (2 * sz ≤ h)

/-- `Divide(h, sz)` when it does not overflow (R486). -/
def reciprocal (h sz : Nat) : Nat :=
  let z := 16 - bitLength sz
  let n := h <<< z
  let d := sz <<< z
  let u := unr ((d - 0x7FC0) >>> 7) + 0x101
  let d' := (0x2000080 - d * u) >>> 8
  let d'' := (0x0000080 + d' * u) >>> 8
  min 0x1FFFF ((n * d'' + 0x8000) >>> 16)

/-- `Divide(h, sz)` (R486). -/
def divide (h sz : Nat) : Checked :=
  ⟨if divideOverflows h sz then 0x1FFFF else reciprocal h sz, flagBit 17 (divideOverflows h sz)⟩

/-! ## Shared steps (R487-R491) -/

/-- One row of `MulMV`: `A_i(A_i(A_i((t << 12) + m1*v1) + m2*v2) + m3*v3)` (R487). -/
def dotRow (i : Lane) (t : Int) (m v : Vec) : Checked :=
  let a := checkA i (t * 4096 + m.x * v.x)
  let b := checkA i (a.val + m.y * v.y)
  let c := checkA i (b.val + m.z * v.z)
  ⟨c.val, a.flag ||| b.flag ||| c.flag⟩

/-- The three sums of `MulMV` (R487). -/
def mulMVSums (m : Matrix) (v t : Vec) : Triple Checked := eachLane fun i => dotRow i (t.get i) (m.get i) v

/-- `MulMV(M, v, t)` (R487). -/
def Gte.mulMV (g : Gte) (sf : Bool) (m : Matrix) (v t : Vec) : Gte := g.storeMacs sf (mulMVSums m v t)

/-- `MacToIr()` (R488). -/
def Gte.macToIr (g : Gte) (lm : Bool) : Gte := g.storeIrs (eachLane fun i => limB i lm (g.macVec.get i))

/-- One component of `Interp`: the saturated distance to the far colour times IR0, plus the base (R489). -/
def interpLane (i : Lane) (sf : Bool) (fc ir0 : Int) (b : Checked) : Checked :=
  let a := checkA i (fc * 4096 - b.val)
  let t := limB i false (a.val >>> shiftOf sf)
  let c := checkA i (t.val * ir0 + b.val)
  ⟨c.val, b.flag ||| a.flag ||| t.flag ||| c.flag⟩

/-- `Interp(b1, b2, b3)`, with the FLAG bits of the bases (R489). -/
def Gte.interp (g : Gte) (sf : Bool) (b : Triple Checked) : Gte :=
  g.storeMacs sf (eachLane fun i => interpLane i sf (g.farColour.get i) g.ir0 (b.get i))

/-- The three colour bytes of `ColourPush` (R490). -/
def Gte.colourBytes (g : Gte) : Triple Checked := eachLane fun i => limC i (g.macVec.get i >>> 4)

/-- `ColourPush()`: R, G, B from MAC1-MAC3, CODE from RGBC (R490). -/
def Gte.colourPush (g : Gte) : Gte :=
  let t := g.colourBytes
  (g.pushRgb (trunc32 t.x.val ||| (trunc32 t.y.val <<< 8) ||| (trunc32 t.z.val <<< 16) |||
    (g.getD 6 &&& 0xFF000000))).orFlag (flagsOf t)

/-- `Light(k)` (R491). -/
def Gte.lightStep (g : Gte) (sf lm : Bool) (k : Lane) : Gte :=
  let a := (g.mulMV sf g.light (g.vertex k) zeroVec).macToIr lm
  (a.mulMV sf a.lightColour a.irVec a.background).macToIr lm

/-- `ColourOnly()` (R491). -/
def Gte.colourOnly (g : Gte) (sf lm : Bool) : Gte :=
  ((g.storeMacs sf (eachLane fun i => checkA i (g.rgbc.get i * g.irVec.get i * 16))).macToIr lm).colourPush

/-- `ColourDepth()` (R491). -/
def Gte.colourDepth (g : Gte) (sf lm : Bool) : Gte :=
  ((g.interp sf (eachLane fun i => checkA i (g.rgbc.get i * g.irVec.get i * 16))).macToIr lm).colourPush

/-! ## Perspective transformation (R500) -/

/-- The part of `Rtp` up to IR3: MAC1-MAC3, IR1, IR2 saturated with their flags, IR3 clamped from MAC3 with its
flag from `s_3 >>s 12` (R500). -/
def Gte.rtpTransform (g : Gte) (sf lm : Bool) (k : Lane) : Gte :=
  let t := mulMVSums g.rotation (g.vertex k) g.translation
  let a := g.storeMacs sf t
  let z := t.z.val >>> 12
  a.storeIrs
    ⟨limB .l1 lm a.macVec.x, limB .l2 lm a.macVec.y,
      ⟨clamp a.macVec.z (irLow lm) 32767, flagBit 22 (decide (z < -32768 ∨ 32767 < z))⟩⟩

/-- The new SZ3 of `Rtp`: `Lm_D(s_3 >>s 12)` (R500). -/
def Gte.rtpDepth (g : Gte) (k : Lane) : Checked :=
  limD ((mulMVSums g.rotation (g.vertex k) g.translation).z.val >>> 12)

/-- A screen coordinate pair as SXY holds it: SX in 15:0, SY in 31:16 (R429). -/
def packSxy (x y : Int) : Word := ((trunc32 y &&& 0xFFFF) <<< 16) ||| (trunc32 x &&& 0xFFFF)

/-- The projection of `Rtp`: SXY2 from the factor n and IR1, IR2, and, for the last vertex, the depth cue
(R500). -/
def Gte.rtpProject (g : Gte) (n : Int) (last : Bool) : Gte :=
  let x := checkF (n * g.irVec.x + (g.getC 24).toInt)
  let y := checkF (n * g.irVec.y + (g.getC 25).toInt)
  let sx := limG1 (x.val >>> 16)
  let sy := limG2 (y.val >>> 16)
  let a := (g.pushSxy (packSxy sx.val sy.val)).orFlag (x.flag ||| y.flag ||| sx.flag ||| sy.flag)
  if last then
    let q := checkF (n * s16 (g.getC 27) + (g.getC 28).toInt)
    let d := limH (q.val >>> 12)
    ((a.storeMac0 q).setD 8 (trunc32 d.val)).orFlag d.flag
  else a

/-- `Rtp(k, last)` (R500). -/
def Gte.rtp (g : Gte) (sf lm : Bool) (k : Lane) (last : Bool) : Gte :=
  let sz := g.rtpDepth k
  let a := ((g.rtpTransform sf lm k).pushSz (trunc32 sz.val)).orFlag sz.flag
  let n := divide (u16 (g.getC 26)).toNat sz.val.toNat
  (a.orFlag n.flag).rtpProject n.val last

/-! ## The frame of every command (R477) -/

/-- FLAG cleared, the body, FLAG bit 31 recomputed (R477). -/
def Gte.frame (g : Gte) (body : Gte → Gte) : Gte :=
  let a := body (g.setC 31 0)
  a.setC 31 (closeFlag a.flag)

/-- A command word: its body in the frame when the command is in `GTE_IMPLEMENTED`, else a diagnostic and no
other effect (R442, R443, R477). -/
def gteCommand (c : GteCmd) (body : Gte → Gte) (s : State) : Result :=
  if s.cfg.gteImplemented.contains c then .next { s with gte := s.gte.frame body }
  else .next (s.record (.gteUnknown s.word s.curPC))

end Sys2Proof.Machine
end

