-- ==== Sys2Proof/Syntax.lean ====
section
/-! DEFINITION. The syntax: one constructor for each of the 193 rows of spec/opcode_table.json (30_encoding.md
R189), with the operand fields the row names (R171, R177; the GTE fields of 45_gte_regs.md R441), in the
operand order of R187. Register numbers are numbers below 32; a field with a set of names is an inductive
type. -/

namespace Sys2Proof

/-- MVMVA's matrix, field mx (R441, R505). -/
inductive MvmMatrix where
  | rt | llm | lcm | garbage
  deriving DecidableEq, Repr

/-- MVMVA's vector, field v (R441, R505). -/
inductive MvmVector where
  | v0 | v1 | v2 | ir
  deriving DecidableEq, Repr

/-- MVMVA's translation vector, field cv (R441, R505). -/
inductive MvmTranslation where
  | tr | bk | fc | zero
  deriving DecidableEq, Repr

/-- The instructions: one constructor per row of the opcode table. -/
inductive Instr where
  | sll (rd rt : Reg) (shamt : BitVec 5)  -- R232
  | srl (rd rt : Reg) (shamt : BitVec 5)  -- R233
  | sra (rd rt : Reg) (shamt : BitVec 5)  -- R234
  | sllv (rd rt rs : Reg)  -- R235
  | srlv (rd rt rs : Reg)  -- R236
  | srav (rd rt rs : Reg)  -- R237
  | jr (rs : Reg)  -- R317
  | jalr (rd rs : Reg)  -- R318
  | syscall (code : BitVec 20)  -- R380
  | break_ (code : BitVec 20)  -- R381
  | mfhi (rd : Reg)  -- R285
  | mthi (rs : Reg)  -- R286
  | mflo (rd : Reg)  -- R287
  | mtlo (rs : Reg)  -- R288
  | mult (rs rt : Reg)  -- R281
  | multu (rs rt : Reg)  -- R282
  | div (rs rt : Reg)  -- R283
  | divu (rs rt : Reg)  -- R284
  | add (rd rs rt : Reg)  -- R222
  | addu (rd rs rt : Reg)  -- R223
  | sub (rd rs rt : Reg)  -- R224
  | subu (rd rs rt : Reg)  -- R225
  | and (rd rs rt : Reg)  -- R226
  | or (rd rs rt : Reg)  -- R227
  | xor (rd rs rt : Reg)  -- R228
  | nor (rd rs rt : Reg)  -- R229
  | slt (rd rs rt : Reg)  -- R230
  | sltu (rd rs rt : Reg)  -- R231
  | j (target : BitVec 26)  -- R315
  | jal (target : BitVec 26)  -- R316
  | beq (rs rt : Reg) (imm : BitVec 16)  -- R319
  | bne (rs rt : Reg) (imm : BitVec 16)  -- R320
  | blez (rs : Reg) (imm : BitVec 16)  -- R321
  | bgtz (rs : Reg) (imm : BitVec 16)  -- R322
  | addi (rt rs : Reg) (imm : BitVec 16)  -- R238
  | addiu (rt rs : Reg) (imm : BitVec 16)  -- R239
  | slti (rt rs : Reg) (imm : BitVec 16)  -- R240
  | sltiu (rt rs : Reg) (imm : BitVec 16)  -- R241
  | andi (rt rs : Reg) (imm : BitVec 16)  -- R242
  | ori (rt rs : Reg) (imm : BitVec 16)  -- R243
  | xori (rt rs : Reg) (imm : BitVec 16)  -- R244
  | lui (rt : Reg) (imm : BitVec 16)  -- R245
  | lb (rt : Reg) (imm : BitVec 16) (rs : Reg)  -- R343
  | lh (rt : Reg) (imm : BitVec 16) (rs : Reg)  -- R345
  | lwl (rt : Reg) (imm : BitVec 16) (rs : Reg)  -- R348
  | lw (rt : Reg) (imm : BitVec 16) (rs : Reg)  -- R347
  | lbu (rt : Reg) (imm : BitVec 16) (rs : Reg)  -- R344
  | lhu (rt : Reg) (imm : BitVec 16) (rs : Reg)  -- R346
  | lwr (rt : Reg) (imm : BitVec 16) (rs : Reg)  -- R349
  | sb (rt : Reg) (imm : BitVec 16) (rs : Reg)  -- R354
  | sh (rt : Reg) (imm : BitVec 16) (rs : Reg)  -- R355
  | swl (rt : Reg) (imm : BitVec 16) (rs : Reg)  -- R357
  | sw (rt : Reg) (imm : BitVec 16) (rs : Reg)  -- R356
  | swr (rt : Reg) (imm : BitVec 16) (rs : Reg)  -- R358
  | bltz (rs : Reg) (imm : BitVec 16)  -- R323
  | bgez (rs : Reg) (imm : BitVec 16)  -- R324
  | bltzal (rs : Reg) (imm : BitVec 16)  -- R325
  | bgezal (rs : Reg) (imm : BitVec 16)  -- R325
  | mfc0 (rt rd : Reg)  -- R383
  | cfc0 (rt rd : Reg)  -- R385
  | mtc0 (rt rd : Reg)  -- R384
  | ctc0 (rt rd : Reg)  -- R386
  | tlbr  -- R388
  | tlbwi  -- R389
  | tlbwr  -- R390
  | tlbp  -- R391
  | rfe  -- R387
  | cop0Unsupported (cofun : BitVec 26)  -- R392
  | mfc2 (rt rd : Reg)  -- R435
  | cfc2 (rt rd : Reg)  -- R436
  | mtc2 (rt rd : Reg)  -- R437
  | ctc2 (rt rd : Reg)  -- R438
  | lwc2 (rt : Reg) (imm : BitVec 16) (rs : Reg)  -- R439
  | swc2 (rt : Reg) (imm : BitVec 16) (rs : Reg)  -- R440
  | gteRtps (sf lm : Bool)  -- R500
  | gteNclip (sf lm : Bool)  -- R501
  | gteOp (sf lm : Bool)  -- R502
  | gteDpcs (sf lm : Bool)  -- R503
  | gteIntpl (sf lm : Bool)  -- R504
  | gteMvmva (sf : Bool) (mx : MvmMatrix) (v : MvmVector) (cv : MvmTranslation) (lm : Bool)  -- R505
  | gteNcds (sf lm : Bool)  -- R506
  | gteCdp (sf lm : Bool)  -- R507
  | gteNcdt (sf lm : Bool)  -- R508
  | gteNccs (sf lm : Bool)  -- R509
  | gteCc (sf lm : Bool)  -- R510
  | gteNcs (sf lm : Bool)  -- R511
  | gteNct (sf lm : Bool)  -- R512
  | gteSqr (sf lm : Bool)  -- R513
  | gteDcpl (sf lm : Bool)  -- R514
  | gteDpct (sf lm : Bool)  -- R515
  | gteAvsz3 (sf lm : Bool)  -- R516
  | gteAvsz4 (sf lm : Bool)  -- R517
  | gteRtpt (sf lm : Bool)  -- R518
  | gteGpf (sf lm : Bool)  -- R519
  | gteGpl (sf lm : Bool)  -- R520
  | gteNcct (sf lm : Bool)  -- R521
  | gteUnknown (cmd : BitVec 6)  -- R442
  | cop1 (cofun : BitVec 26)  -- R393
  | cop3 (cofun : BitVec 26)  -- R393
  | lwc0 (rt : Reg) (imm : BitVec 16) (rs : Reg)  -- R394
  | lwc1 (rt : Reg) (imm : BitVec 16) (rs : Reg)  -- R394
  | lwc3 (rt : Reg) (imm : BitVec 16) (rs : Reg)  -- R394
  | swc0 (rt : Reg) (imm : BitVec 16) (rs : Reg)  -- R394
  | swc1 (rt : Reg) (imm : BitVec 16) (rs : Reg)  -- R394
  | swc3 (rt : Reg) (imm : BitVec 16) (rs : Reg)  -- R394
  -- Undefined primary opcodes (R395): row `unimpl_op_0x<n>` is constructor `unimplOp<n>`.
  | unimplOp14
  | unimplOp15
  | unimplOp16
  | unimplOp17
  | unimplOp18
  | unimplOp19
  | unimplOp1A
  | unimplOp1B
  | unimplOp1C
  | unimplOp1D
  | unimplOp1E
  | unimplOp1F
  | unimplOp27
  | unimplOp2C
  | unimplOp2D
  | unimplOp2F
  | unimplOp34
  | unimplOp35
  | unimplOp36
  | unimplOp37
  | unimplOp3C
  | unimplOp3D
  | unimplOp3E
  | unimplOp3F
  -- Undefined SPECIAL function values (R395): row `unimpl_special_0x<n>` is constructor `unimplSpecial<n>`.
  | unimplSpecial01
  | unimplSpecial05
  | unimplSpecial0A
  | unimplSpecial0B
  | unimplSpecial0E
  | unimplSpecial0F
  | unimplSpecial14
  | unimplSpecial15
  | unimplSpecial16
  | unimplSpecial17
  | unimplSpecial1C
  | unimplSpecial1D
  | unimplSpecial1E
  | unimplSpecial1F
  | unimplSpecial28
  | unimplSpecial29
  | unimplSpecial2C
  | unimplSpecial2D
  | unimplSpecial2E
  | unimplSpecial2F
  | unimplSpecial30
  | unimplSpecial31
  | unimplSpecial32
  | unimplSpecial33
  | unimplSpecial34
  | unimplSpecial35
  | unimplSpecial36
  | unimplSpecial37
  | unimplSpecial38
  | unimplSpecial39
  | unimplSpecial3A
  | unimplSpecial3B
  | unimplSpecial3C
  | unimplSpecial3D
  | unimplSpecial3E
  | unimplSpecial3F
  -- Undefined REGIMM rt values (R395): row `unimpl_regimm_0x<n>` is constructor `unimplRegimm<n>`.
  | unimplRegimm02
  | unimplRegimm03
  | unimplRegimm04
  | unimplRegimm05
  | unimplRegimm06
  | unimplRegimm07
  | unimplRegimm08
  | unimplRegimm09
  | unimplRegimm0A
  | unimplRegimm0B
  | unimplRegimm0C
  | unimplRegimm0D
  | unimplRegimm0E
  | unimplRegimm0F
  | unimplRegimm12
  | unimplRegimm13
  | unimplRegimm14
  | unimplRegimm15
  | unimplRegimm16
  | unimplRegimm17
  | unimplRegimm18
  | unimplRegimm19
  | unimplRegimm1A
  | unimplRegimm1B
  | unimplRegimm1C
  | unimplRegimm1D
  | unimplRegimm1E
  | unimplRegimm1F
  deriving DecidableEq, Repr

end Sys2Proof
end

