-- ==== Sys2Proof/Machine/GteCommands.lean ====
section
/-! DEFINITION. The 22 GTE commands (46_gte_commands.md R500-R521) and the unknown command (45_gte_regs.md
R442): for each a body on the register bank, and the instruction that runs it in the frame of R477. -/

namespace Sys2Proof.Machine

/-- `b(V0); b(V1); b(V2)`, one after the other (R508, R512, R521). -/
def Gte.eachVertex (g : Gte) (b : Gte → Lane → Gte) : Gte := b (b (b g .l1) .l2) .l3

/-- RTPS (R500). -/
def gteRtps (sf lm : Bool) (g : Gte) : Gte := g.rtp sf lm .l1 true

/-- RTPT (R518). -/
def gteRtpt (sf lm : Bool) (g : Gte) : Gte :=
  ((g.rtp sf lm .l1 false).rtp sf lm .l2 false).rtp sf lm .l3 true

/-- The signed area of the screen triangle (R501). -/
def Gte.screenArea (g : Gte) : Int :=
  let x0 := s16 (g.getD 12)
  let y0 := hi16s (g.getD 12)
  let x1 := s16 (g.getD 13)
  let y1 := hi16s (g.getD 13)
  let x2 := s16 (g.getD 14)
  let y2 := hi16s (g.getD 14)
  x0 * y1 + x1 * y2 + x2 * y0 - x0 * y2 - x1 * y0 - x2 * y1

/-- NCLIP (R501). -/
def gteNclip (g : Gte) : Gte := g.storeMac0 (checkF g.screenArea)

/-- The cross product of (IR1, IR2, IR3) and the diagonal of RT (R502). -/
def Gte.outer (g : Gte) : Triple Checked :=
  let ir := g.irVec
  let d1 := g.rotation.x.x
  let d2 := g.rotation.y.y
  let d3 := g.rotation.z.z
  ⟨checkA .l1 (ir.z * d2 - ir.y * d3), checkA .l2 (ir.x * d3 - ir.z * d1), checkA .l3 (ir.y * d1 - ir.x * d2)⟩

/-- OP (R502). -/
def gteOp (sf lm : Bool) (g : Gte) : Gte := (g.storeMacs sf g.outer).macToIr lm

/-- `Interp(A_1(R << 16), A_2(G << 16), A_3(B << 16)); MacToIr(); ColourPush()` for a colour word
(R503, R515). -/
def Gte.depthCue (g : Gte) (sf lm : Bool) (colour : Word) : Gte :=
  ((g.interp sf (eachLane fun i => checkA i ((colourVec colour).get i * 65536))).macToIr lm).colourPush

/-- DPCS (R503). -/
def gteDpcs (sf lm : Bool) (g : Gte) : Gte := g.depthCue sf lm (g.getD 6)

/-- One iteration of DPCT: RGB0 is read afresh (R515). -/
def Gte.depthCueFifo (g : Gte) (sf lm : Bool) : Gte := g.depthCue sf lm (g.getD 20)

/-- DPCT (R515). -/
def gteDpct (sf lm : Bool) (g : Gte) : Gte :=
  ((g.depthCueFifo sf lm).depthCueFifo sf lm).depthCueFifo sf lm

/-- INTPL (R504). -/
def gteIntpl (sf lm : Bool) (g : Gte) : Gte :=
  ((g.interp sf (eachLane fun i => checkA i (g.irVec.get i * 4096))).macToIr lm).colourPush

/-- The matrix of MVMVA (R505). -/
def Gte.mvmMatrix (g : Gte) : MvmMatrix → Matrix
  | .rt => g.rotation
  | .llm => g.light
  | .lcm => g.lightColour
  | .garbage =>
    let r := g.rgbc.x * 16
    let rt13 := g.rotation.x.z
    let rt22 := g.rotation.y.y
    ⟨⟨-r, r, g.ir0⟩, ⟨rt13, rt13, rt13⟩, ⟨rt22, rt22, rt22⟩⟩

/-- The vector of MVMVA (R505). -/
def Gte.mvmVector (g : Gte) : MvmVector → Vec
  | .v0 => g.vertex .l1
  | .v1 => g.vertex .l2
  | .v2 => g.vertex .l3
  | .ir => g.irVec

/-- The translation vector of MVMVA (R505). -/
def Gte.mvmTranslation (g : Gte) : MvmTranslation → Vec
  | .tr => g.translation
  | .bk => g.background
  | .fc => g.farColour
  | .zero => zeroVec

/-- One component of MVMVA with cv = 2: FC and the first column set flags and are lost from the result
(R505). -/
def mvmFarLane (i : Lane) (sf : Bool) (fc : Int) (m v : Vec) : Checked :=
  let a := checkA i (fc * 4096 + m.x * v.x)
  let lost := limB i false (a.val >>> shiftOf sf)
  let b := checkA i (m.y * v.y)
  let c := checkA i (b.val + m.z * v.z)
  ⟨c.val, a.flag ||| lost.flag ||| b.flag ||| c.flag⟩

/-- The three sums of MVMVA (R505). -/
def mvmSums (sf : Bool) (m : Matrix) (v : Vec) (cv : MvmTranslation) (g : Gte) : Triple Checked :=
  match cv with
  | .fc => eachLane fun i => mvmFarLane i sf (g.farColour.get i) (m.get i) v
  | _ => mulMVSums m v (g.mvmTranslation cv)

/-- MVMVA (R505). -/
def gteMvmva (sf : Bool) (mx : MvmMatrix) (v : MvmVector) (cv : MvmTranslation) (lm : Bool) (g : Gte) : Gte :=
  (g.storeMacs sf (mvmSums sf (g.mvmMatrix mx) (g.mvmVector v) cv g)).macToIr lm

/-- NCDS for one vertex (R506). -/
def Gte.normalDepth (sf lm : Bool) (g : Gte) (k : Lane) : Gte := (g.lightStep sf lm k).colourDepth sf lm

/-- NCCS for one vertex (R509). -/
def Gte.normalColour (sf lm : Bool) (g : Gte) (k : Lane) : Gte := (g.lightStep sf lm k).colourOnly sf lm

/-- NCS for one vertex (R511). -/
def Gte.normalLight (sf lm : Bool) (g : Gte) (k : Lane) : Gte := (g.lightStep sf lm k).colourPush

/-- NCDS (R506). -/
def gteNcds (sf lm : Bool) (g : Gte) : Gte := g.normalDepth sf lm .l1

/-- NCDT (R508). -/
def gteNcdt (sf lm : Bool) (g : Gte) : Gte := g.eachVertex (Gte.normalDepth sf lm)

/-- NCCS (R509). -/
def gteNccs (sf lm : Bool) (g : Gte) : Gte := g.normalColour sf lm .l1

/-- NCCT (R521). -/
def gteNcct (sf lm : Bool) (g : Gte) : Gte := g.eachVertex (Gte.normalColour sf lm)

/-- NCS (R511). -/
def gteNcs (sf lm : Bool) (g : Gte) : Gte := g.normalLight sf lm .l1

/-- NCT (R512). -/
def gteNct (sf lm : Bool) (g : Gte) : Gte := g.eachVertex (Gte.normalLight sf lm)

/-- The light colour of the IR vector: `MulMV(LCM, (IR1, IR2, IR3), BK); MacToIr()` (R507, R510). -/
def Gte.irLight (g : Gte) (sf lm : Bool) : Gte :=
  (g.mulMV sf g.lightColour g.irVec g.background).macToIr lm

/-- CDP (R507). -/
def gteCdp (sf lm : Bool) (g : Gte) : Gte := (g.irLight sf lm).colourDepth sf lm

/-- CC (R510). -/
def gteCc (sf lm : Bool) (g : Gte) : Gte := (g.irLight sf lm).colourOnly sf lm

/-- SQR (R513). -/
def gteSqr (sf lm : Bool) (g : Gte) : Gte :=
  (g.storeMacs sf (eachLane fun i => checkA i (g.irVec.get i * g.irVec.get i))).macToIr lm

/-- DCPL (R514). -/
def gteDcpl (sf lm : Bool) (g : Gte) : Gte := g.colourDepth sf lm

/-- OTZ <- Lm_D(v >>s 12) and MAC0 <- trunc32(v), for v = F(scale * sum) (R516, R517). -/
def Gte.averageZ (g : Gte) (scale sum : Int) : Gte :=
  let v := checkF (scale * sum)
  let otz := limD (v.val >>> 12)
  ((g.storeMac0 v).setD 7 (trunc32 otz.val)).orFlag otz.flag

/-- AVSZ3 (R516). -/
def gteAvsz3 (g : Gte) : Gte :=
  g.averageZ (s16 (g.getC 29)) (u16 (g.getD 17) + u16 (g.getD 18) + u16 (g.getD 19))

/-- AVSZ4 (R517). -/
def gteAvsz4 (g : Gte) : Gte :=
  g.averageZ (s16 (g.getC 30)) (u16 (g.getD 16) + u16 (g.getD 17) + u16 (g.getD 18) + u16 (g.getD 19))

/-- GPF (R519). -/
def gteGpf (sf lm : Bool) (g : Gte) : Gte :=
  ((g.storeMacs sf (eachLane fun i => checkA i (g.irVec.get i * g.ir0))).macToIr lm).colourPush

/-- `v << shift` on integers (R520). -/
def scaleUp (sf : Bool) (v : Int) : Int := if sf then v * 4096 else v

/-- GPL (R520). -/
def gteGpl (sf lm : Bool) (g : Gte) : Gte :=
  ((g.storeMacs sf (eachLane fun i =>
    checkA i (scaleUp sf (g.macVec.get i) + g.irVec.get i * g.ir0))).macToIr lm).colourPush

/-! ## The instructions -/

def execGteRtps (sf lm : Bool) (s : State) : Result := gteCommand .rtps (gteRtps sf lm) s
def execGteNclip (_sf _lm : Bool) (s : State) : Result := gteCommand .nclip gteNclip s
def execGteOp (sf lm : Bool) (s : State) : Result := gteCommand .op (gteOp sf lm) s
def execGteDpcs (sf lm : Bool) (s : State) : Result := gteCommand .dpcs (gteDpcs sf lm) s
def execGteIntpl (sf lm : Bool) (s : State) : Result := gteCommand .intpl (gteIntpl sf lm) s
def execGteMvmva (sf : Bool) (mx : MvmMatrix) (v : MvmVector) (cv : MvmTranslation) (lm : Bool) (s : State) :
    Result := gteCommand .mvmva (gteMvmva sf mx v cv lm) s
def execGteNcds (sf lm : Bool) (s : State) : Result := gteCommand .ncds (gteNcds sf lm) s
def execGteCdp (sf lm : Bool) (s : State) : Result := gteCommand .cdp (gteCdp sf lm) s
def execGteNcdt (sf lm : Bool) (s : State) : Result := gteCommand .ncdt (gteNcdt sf lm) s
def execGteNccs (sf lm : Bool) (s : State) : Result := gteCommand .nccs (gteNccs sf lm) s
def execGteCc (sf lm : Bool) (s : State) : Result := gteCommand .cc (gteCc sf lm) s
def execGteNcs (sf lm : Bool) (s : State) : Result := gteCommand .ncs (gteNcs sf lm) s
def execGteNct (sf lm : Bool) (s : State) : Result := gteCommand .nct (gteNct sf lm) s
def execGteSqr (sf lm : Bool) (s : State) : Result := gteCommand .sqr (gteSqr sf lm) s
def execGteDcpl (sf lm : Bool) (s : State) : Result := gteCommand .dcpl (gteDcpl sf lm) s
def execGteDpct (sf lm : Bool) (s : State) : Result := gteCommand .dpct (gteDpct sf lm) s
def execGteAvsz3 (_sf _lm : Bool) (s : State) : Result := gteCommand .avsz3 gteAvsz3 s
def execGteAvsz4 (_sf _lm : Bool) (s : State) : Result := gteCommand .avsz4 gteAvsz4 s
def execGteRtpt (sf lm : Bool) (s : State) : Result := gteCommand .rtpt (gteRtpt sf lm) s
def execGteGpf (sf lm : Bool) (s : State) : Result := gteCommand .gpf (gteGpf sf lm) s
def execGteGpl (sf lm : Bool) (s : State) : Result := gteCommand .gpl (gteGpl sf lm) s
def execGteNcct (sf lm : Bool) (s : State) : Result := gteCommand .ncct (gteNcct sf lm) s

/-- A command number with no command: a diagnostic, FLAG not cleared, no register written (R442). -/
def execGteUnknown (_cmd : BitVec 6) (s : State) : Result := .next (s.record (.gteUnknown s.word s.curPC))

end Sys2Proof.Machine
end

