-- ==== Sys2Proof/Machine/LoadStore.lean ====
section
/-! DEFINITION. Loads and stores (43_loadstore.md R340-R358). A load writes rt in its own step; a load to
register 0 still makes its access (R341). -/

namespace Sys2Proof.Machine

/-! ## Loads (R343-R349) -/

/-- A load that writes rt with its value, extended by `ext`. -/
def loadReg (n : Width) (ext : Word → Word) (rt : Reg) (ea : Word) (s : State) : Result :=
  loadWith n ea (fun v t => t.setReg rt (ext v)) s

def execLb (rt : Reg) (imm : BitVec 16) (rs : Reg) (s : State) : Result :=
  loadReg .byte sext8 rt (effAddr (s.getReg rs) imm) s

def execLbu (rt : Reg) (imm : BitVec 16) (rs : Reg) (s : State) : Result :=
  loadReg .byte zext8 rt (effAddr (s.getReg rs) imm) s

def execLh (rt : Reg) (imm : BitVec 16) (rs : Reg) (s : State) : Result :=
  loadReg .half sextHalf rt (effAddr (s.getReg rs) imm) s

def execLhu (rt : Reg) (imm : BitVec 16) (rs : Reg) (s : State) : Result :=
  loadReg .half zextHalf rt (effAddr (s.getReg rs) imm) s

def execLw (rt : Reg) (imm : BitVec 16) (rs : Reg) (s : State) : Result :=
  loadReg .word id rt (effAddr (s.getReg rs) imm) s

def execLwl (rt : Reg) (imm : BitVec 16) (rs : Reg) (s : State) : Result :=
  loadUnaligned (effAddr (s.getReg rs) imm) rt mergeLwl s

def execLwr (rt : Reg) (imm : BitVec 16) (rs : Reg) (s : State) : Result :=
  loadUnaligned (effAddr (s.getReg rs) imm) rt mergeLwr s

/-! ## Stores (R354-R358) -/

def execSb (rt : Reg) (imm : BitVec 16) (rs : Reg) (s : State) : Result :=
  storeWith .byte (effAddr (s.getReg rs) imm) (s.getReg rt) s

def execSh (rt : Reg) (imm : BitVec 16) (rs : Reg) (s : State) : Result :=
  storeWith .half (effAddr (s.getReg rs) imm) (s.getReg rt) s

def execSw (rt : Reg) (imm : BitVec 16) (rs : Reg) (s : State) : Result :=
  storeWith .word (effAddr (s.getReg rs) imm) (s.getReg rt) s

def execSwl (rt : Reg) (imm : BitVec 16) (rs : Reg) (s : State) : Result :=
  storeUnaligned (effAddr (s.getReg rs) imm) rt mergeSwl s

def execSwr (rt : Reg) (imm : BitVec 16) (rs : Reg) (s : State) : Result :=
  storeUnaligned (effAddr (s.getReg rs) imm) rt mergeSwr s

end Sys2Proof.Machine
end

