-- ==== Sys2Proof/Machine/MulDiv.lean ====
section
/-! DEFINITION. Multiply, divide and the HI/LO moves (41_muldiv.md R280-R289). None raises an exception; every
result is there for the next instruction. -/

namespace Sys2Proof.Machine

/-- `hi` and `lo` written together. -/
def State.setHiLo (s : State) (hi lo : Word) : State := { s with hi := hi, lo := lo }

/-- An exact product in HI and LO: bits 63:32 and bits 31:0 (R281, R282). -/
def State.setProduct (s : State) (p : Int) : State :=
  s.setHiLo (BitVec.ofInt 32 (p >>> 32)) (BitVec.ofInt 32 p)

def execMult (rs rt : Reg) (s : State) : Result :=
  .next (s.setProduct ((s.getReg rs).toInt * (s.getReg rt).toInt))

def execMultu (rs rt : Reg) (s : State) : Result :=
  .next (s.setProduct ((s.getReg rs).toNat * (s.getReg rt).toNat))

/-- LO of div: the quotient truncated toward zero, with the cases of a zero divisor and of the most negative
dividend by -1 (R283). -/
def divQuotient (n d : Word) : Word :=
  if d = 0 then (if 0 ≤ n.toInt then 0xFFFFFFFF else 0x00000001)
  else if n = 0x80000000 ∧ d = 0xFFFFFFFF then 0x80000000
  else BitVec.ofInt 32 (n.toInt.tdiv d.toInt)

/-- HI of div: the remainder, of the dividend's sign (R283). -/
def divRemainder (n d : Word) : Word :=
  if d = 0 then n
  else if n = 0x80000000 ∧ d = 0xFFFFFFFF then 0
  else BitVec.ofInt 32 (n.toInt - n.toInt.tdiv d.toInt * d.toInt)

def execDiv (rs rt : Reg) (s : State) : Result :=
  .next (s.setHiLo (divRemainder (s.getReg rs) (s.getReg rt)) (divQuotient (s.getReg rs) (s.getReg rt)))

/-- LO of divu: the floor of the quotient; all ones for a zero divisor (R284). -/
def divuQuotient (n d : Word) : Word := if d = 0 then 0xFFFFFFFF else BitVec.ofNat 32 (n.toNat / d.toNat)

/-- HI of divu: the remainder; the dividend for a zero divisor (R284). -/
def divuRemainder (n d : Word) : Word := if d = 0 then n else BitVec.ofNat 32 (n.toNat % d.toNat)

def execDivu (rs rt : Reg) (s : State) : Result :=
  .next (s.setHiLo (divuRemainder (s.getReg rs) (s.getReg rt)) (divuQuotient (s.getReg rs) (s.getReg rt)))

def execMfhi (rd : Reg) (s : State) : Result := .next (s.setReg rd s.hi)

def execMthi (rs : Reg) (s : State) : Result := .next { s with hi := s.getReg rs }

def execMflo (rd : Reg) (s : State) : Result := .next (s.setReg rd s.lo)

def execMtlo (rs : Reg) (s : State) : Result := .next { s with lo := s.getReg rs }

end Sys2Proof.Machine
end

