-- ==== Sys2Proof/Machine/System.lean ====
section
/-! DEFINITION. syscall, break and the COP0 instructions (44_system.md R380-R392). None is privileged
(R397). -/

namespace Sys2Proof.Machine

/-! ## Traps (R380, R381) -/

/-- The code has no effect (R184, R380). -/
def execSyscall (_code : BitVec 20) (s : State) : Result := raise .sys none s

def execBreak (_code : BitVec 20) (s : State) : Result := raise .bp none s

/-! ## COP0 moves (R383, R384) -/

def execMfc0 (rt rd : Reg) (s : State) : Result := .next (s.setReg rt (s.getCop0 rd))

/-- All 32 bits of any register, with no permission check (R50, R384). -/
def execMtc0 (rt rd : Reg) (s : State) : Result := .next (s.setCop0 rd (s.getReg rt))

/-! ## Return from exception (R387) -/

def execRfe (s : State) : Result := .next s.leave

/-! ## Operations that are logged and change nothing else (R385, R386, R388-R392) -/

/-- The diagnostic of an unsupported COP0 operation, and no other effect. -/
def logCop0Unsupported (s : State) : Result := .next (s.record (.cop0Unsupported s.word s.curPC))

def execCfc0 (_rt _rd : Reg) (s : State) : Result := logCop0Unsupported s
def execCtc0 (_rt _rd : Reg) (s : State) : Result := logCop0Unsupported s
def execTlbr (s : State) : Result := logCop0Unsupported s
def execTlbwi (s : State) : Result := logCop0Unsupported s
def execTlbwr (s : State) : Result := logCop0Unsupported s
def execTlbp (s : State) : Result := logCop0Unsupported s
def execCop0Unsupported (_cofun : BitVec 26) (s : State) : Result := logCop0Unsupported s

end Sys2Proof.Machine
end

