-- ==== Sys2Proof/Machine/Unimplemented.lean ====
section
/-! DEFINITION. The words the block does not implement: COP1, COP3, the loads and stores of absent
coprocessors, and the undefined encodings (44_system.md R393-R395). Each records a diagnostic with the whole
word and its address (R396) and has no other effect; no exception is raised (R186). -/

namespace Sys2Proof.Machine

/-- "failure (unimplemented opcode) is logged but does not halt the machine" (R306, R395). -/
def logUnimplemented (s : State) : Result := .next (s.record (.unimplemented s.word s.curPC))

def execCop1 (_cofun : BitVec 26) (s : State) : Result := logUnimplemented s
def execCop3 (_cofun : BitVec 26) (s : State) : Result := logUnimplemented s
def execLwc0 (_rt : Reg) (_imm : BitVec 16) (_rs : Reg) (s : State) : Result := logUnimplemented s
def execLwc1 (_rt : Reg) (_imm : BitVec 16) (_rs : Reg) (s : State) : Result := logUnimplemented s
def execLwc3 (_rt : Reg) (_imm : BitVec 16) (_rs : Reg) (s : State) : Result := logUnimplemented s
def execSwc0 (_rt : Reg) (_imm : BitVec 16) (_rs : Reg) (s : State) : Result := logUnimplemented s
def execSwc1 (_rt : Reg) (_imm : BitVec 16) (_rs : Reg) (s : State) : Result := logUnimplemented s
def execSwc3 (_rt : Reg) (_imm : BitVec 16) (_rs : Reg) (s : State) : Result := logUnimplemented s
def execUnimplOp14 (s : State) : Result := logUnimplemented s
def execUnimplOp15 (s : State) : Result := logUnimplemented s
def execUnimplOp16 (s : State) : Result := logUnimplemented s
def execUnimplOp17 (s : State) : Result := logUnimplemented s
def execUnimplOp18 (s : State) : Result := logUnimplemented s
def execUnimplOp19 (s : State) : Result := logUnimplemented s
def execUnimplOp1A (s : State) : Result := logUnimplemented s
def execUnimplOp1B (s : State) : Result := logUnimplemented s
def execUnimplOp1C (s : State) : Result := logUnimplemented s
def execUnimplOp1D (s : State) : Result := logUnimplemented s
def execUnimplOp1E (s : State) : Result := logUnimplemented s
def execUnimplOp1F (s : State) : Result := logUnimplemented s
def execUnimplOp27 (s : State) : Result := logUnimplemented s
def execUnimplOp2C (s : State) : Result := logUnimplemented s
def execUnimplOp2D (s : State) : Result := logUnimplemented s
def execUnimplOp2F (s : State) : Result := logUnimplemented s
def execUnimplOp34 (s : State) : Result := logUnimplemented s
def execUnimplOp35 (s : State) : Result := logUnimplemented s
def execUnimplOp36 (s : State) : Result := logUnimplemented s
def execUnimplOp37 (s : State) : Result := logUnimplemented s
def execUnimplOp3C (s : State) : Result := logUnimplemented s
def execUnimplOp3D (s : State) : Result := logUnimplemented s
def execUnimplOp3E (s : State) : Result := logUnimplemented s
def execUnimplOp3F (s : State) : Result := logUnimplemented s
def execUnimplSpecial01 (s : State) : Result := logUnimplemented s
def execUnimplSpecial05 (s : State) : Result := logUnimplemented s
def execUnimplSpecial0A (s : State) : Result := logUnimplemented s
def execUnimplSpecial0B (s : State) : Result := logUnimplemented s
def execUnimplSpecial0E (s : State) : Result := logUnimplemented s
def execUnimplSpecial0F (s : State) : Result := logUnimplemented s
def execUnimplSpecial14 (s : State) : Result := logUnimplemented s
def execUnimplSpecial15 (s : State) : Result := logUnimplemented s
def execUnimplSpecial16 (s : State) : Result := logUnimplemented s
def execUnimplSpecial17 (s : State) : Result := logUnimplemented s
def execUnimplSpecial1C (s : State) : Result := logUnimplemented s
def execUnimplSpecial1D (s : State) : Result := logUnimplemented s
def execUnimplSpecial1E (s : State) : Result := logUnimplemented s
def execUnimplSpecial1F (s : State) : Result := logUnimplemented s
def execUnimplSpecial28 (s : State) : Result := logUnimplemented s
def execUnimplSpecial29 (s : State) : Result := logUnimplemented s
def execUnimplSpecial2C (s : State) : Result := logUnimplemented s
def execUnimplSpecial2D (s : State) : Result := logUnimplemented s
def execUnimplSpecial2E (s : State) : Result := logUnimplemented s
def execUnimplSpecial2F (s : State) : Result := logUnimplemented s
def execUnimplSpecial30 (s : State) : Result := logUnimplemented s
def execUnimplSpecial31 (s : State) : Result := logUnimplemented s
def execUnimplSpecial32 (s : State) : Result := logUnimplemented s
def execUnimplSpecial33 (s : State) : Result := logUnimplemented s
def execUnimplSpecial34 (s : State) : Result := logUnimplemented s
def execUnimplSpecial35 (s : State) : Result := logUnimplemented s
def execUnimplSpecial36 (s : State) : Result := logUnimplemented s
def execUnimplSpecial37 (s : State) : Result := logUnimplemented s
def execUnimplSpecial38 (s : State) : Result := logUnimplemented s
def execUnimplSpecial39 (s : State) : Result := logUnimplemented s
def execUnimplSpecial3A (s : State) : Result := logUnimplemented s
def execUnimplSpecial3B (s : State) : Result := logUnimplemented s
def execUnimplSpecial3C (s : State) : Result := logUnimplemented s
def execUnimplSpecial3D (s : State) : Result := logUnimplemented s
def execUnimplSpecial3E (s : State) : Result := logUnimplemented s
def execUnimplSpecial3F (s : State) : Result := logUnimplemented s
def execUnimplRegimm02 (s : State) : Result := logUnimplemented s
def execUnimplRegimm03 (s : State) : Result := logUnimplemented s
def execUnimplRegimm04 (s : State) : Result := logUnimplemented s
def execUnimplRegimm05 (s : State) : Result := logUnimplemented s
def execUnimplRegimm06 (s : State) : Result := logUnimplemented s
def execUnimplRegimm07 (s : State) : Result := logUnimplemented s
def execUnimplRegimm08 (s : State) : Result := logUnimplemented s
def execUnimplRegimm09 (s : State) : Result := logUnimplemented s
def execUnimplRegimm0A (s : State) : Result := logUnimplemented s
def execUnimplRegimm0B (s : State) : Result := logUnimplemented s
def execUnimplRegimm0C (s : State) : Result := logUnimplemented s
def execUnimplRegimm0D (s : State) : Result := logUnimplemented s
def execUnimplRegimm0E (s : State) : Result := logUnimplemented s
def execUnimplRegimm0F (s : State) : Result := logUnimplemented s
def execUnimplRegimm12 (s : State) : Result := logUnimplemented s
def execUnimplRegimm13 (s : State) : Result := logUnimplemented s
def execUnimplRegimm14 (s : State) : Result := logUnimplemented s
def execUnimplRegimm15 (s : State) : Result := logUnimplemented s
def execUnimplRegimm16 (s : State) : Result := logUnimplemented s
def execUnimplRegimm17 (s : State) : Result := logUnimplemented s
def execUnimplRegimm18 (s : State) : Result := logUnimplemented s
def execUnimplRegimm19 (s : State) : Result := logUnimplemented s
def execUnimplRegimm1A (s : State) : Result := logUnimplemented s
def execUnimplRegimm1B (s : State) : Result := logUnimplemented s
def execUnimplRegimm1C (s : State) : Result := logUnimplemented s
def execUnimplRegimm1D (s : State) : Result := logUnimplemented s
def execUnimplRegimm1E (s : State) : Result := logUnimplemented s
def execUnimplRegimm1F (s : State) : Result := logUnimplemented s

end Sys2Proof.Machine
end

