-- ==== Sys2Proof/Machine/Dispatch.lean ====
section
/-! DEFINITION. One arm per instruction: each calls its own meaning. -/

namespace Sys2Proof.Machine

def exec (i : Instr) (s : State) : Host.Outcome State Fault Refusal :=
  match i with
  | .sll rd rt shamt => Sys2Proof.Machine.execSll rd rt shamt s
  | .srl rd rt shamt => Sys2Proof.Machine.execSrl rd rt shamt s
  | .sra rd rt shamt => Sys2Proof.Machine.execSra rd rt shamt s
  | .sllv rd rt rs => Sys2Proof.Machine.execSllv rd rt rs s
  | .srlv rd rt rs => Sys2Proof.Machine.execSrlv rd rt rs s
  | .srav rd rt rs => Sys2Proof.Machine.execSrav rd rt rs s
  | .jr rs => Sys2Proof.Machine.execJr rs s
  | .jalr rd rs => Sys2Proof.Machine.execJalr rd rs s
  | .syscall code => Sys2Proof.Machine.execSyscall code s
  | .break_ code => Sys2Proof.Machine.execBreak code s
  | .mfhi rd => Sys2Proof.Machine.execMfhi rd s
  | .mthi rs => Sys2Proof.Machine.execMthi rs s
  | .mflo rd => Sys2Proof.Machine.execMflo rd s
  | .mtlo rs => Sys2Proof.Machine.execMtlo rs s
  | .mult rs rt => Sys2Proof.Machine.execMult rs rt s
  | .multu rs rt => Sys2Proof.Machine.execMultu rs rt s
  | .div rs rt => Sys2Proof.Machine.execDiv rs rt s
  | .divu rs rt => Sys2Proof.Machine.execDivu rs rt s
  | .add rd rs rt => Sys2Proof.Machine.execAdd rd rs rt s
  | .addu rd rs rt => Sys2Proof.Machine.execAddu rd rs rt s
  | .sub rd rs rt => Sys2Proof.Machine.execSub rd rs rt s
  | .subu rd rs rt => Sys2Proof.Machine.execSubu rd rs rt s
  | .and rd rs rt => Sys2Proof.Machine.execAnd rd rs rt s
  | .or rd rs rt => Sys2Proof.Machine.execOr rd rs rt s
  | .xor rd rs rt => Sys2Proof.Machine.execXor rd rs rt s
  | .nor rd rs rt => Sys2Proof.Machine.execNor rd rs rt s
  | .slt rd rs rt => Sys2Proof.Machine.execSlt rd rs rt s
  | .sltu rd rs rt => Sys2Proof.Machine.execSltu rd rs rt s
  | .j target => Sys2Proof.Machine.execJ target s
  | .jal target => Sys2Proof.Machine.execJal target s
  | .beq rs rt imm => Sys2Proof.Machine.execBeq rs rt imm s
  | .bne rs rt imm => Sys2Proof.Machine.execBne rs rt imm s
  | .blez rs imm => Sys2Proof.Machine.execBlez rs imm s
  | .bgtz rs imm => Sys2Proof.Machine.execBgtz rs imm s
  | .addi rt rs imm => Sys2Proof.Machine.execAddi rt rs imm s
  | .addiu rt rs imm => Sys2Proof.Machine.execAddiu rt rs imm s
  | .slti rt rs imm => Sys2Proof.Machine.execSlti rt rs imm s
  | .sltiu rt rs imm => Sys2Proof.Machine.execSltiu rt rs imm s
  | .andi rt rs imm => Sys2Proof.Machine.execAndi rt rs imm s
  | .ori rt rs imm => Sys2Proof.Machine.execOri rt rs imm s
  | .xori rt rs imm => Sys2Proof.Machine.execXori rt rs imm s
  | .lui rt imm => Sys2Proof.Machine.execLui rt imm s
  | .lb rt imm rs => Sys2Proof.Machine.execLb rt imm rs s
  | .lh rt imm rs => Sys2Proof.Machine.execLh rt imm rs s
  | .lwl rt imm rs => Sys2Proof.Machine.execLwl rt imm rs s
  | .lw rt imm rs => Sys2Proof.Machine.execLw rt imm rs s
  | .lbu rt imm rs => Sys2Proof.Machine.execLbu rt imm rs s
  | .lhu rt imm rs => Sys2Proof.Machine.execLhu rt imm rs s
  | .lwr rt imm rs => Sys2Proof.Machine.execLwr rt imm rs s
  | .sb rt imm rs => Sys2Proof.Machine.execSb rt imm rs s
  | .sh rt imm rs => Sys2Proof.Machine.execSh rt imm rs s
  | .swl rt imm rs => Sys2Proof.Machine.execSwl rt imm rs s
  | .sw rt imm rs => Sys2Proof.Machine.execSw rt imm rs s
  | .swr rt imm rs => Sys2Proof.Machine.execSwr rt imm rs s
  | .bltz rs imm => Sys2Proof.Machine.execBltz rs imm s
  | .bgez rs imm => Sys2Proof.Machine.execBgez rs imm s
  | .bltzal rs imm => Sys2Proof.Machine.execBltzal rs imm s
  | .bgezal rs imm => Sys2Proof.Machine.execBgezal rs imm s
  | .mfc0 rt rd => Sys2Proof.Machine.execMfc0 rt rd s
  | .cfc0 rt rd => Sys2Proof.Machine.execCfc0 rt rd s
  | .mtc0 rt rd => Sys2Proof.Machine.execMtc0 rt rd s
  | .ctc0 rt rd => Sys2Proof.Machine.execCtc0 rt rd s
  | .tlbr => Sys2Proof.Machine.execTlbr s
  | .tlbwi => Sys2Proof.Machine.execTlbwi s
  | .tlbwr => Sys2Proof.Machine.execTlbwr s
  | .tlbp => Sys2Proof.Machine.execTlbp s
  | .rfe => Sys2Proof.Machine.execRfe s
  | .cop0Unsupported cofun => Sys2Proof.Machine.execCop0Unsupported cofun s
  | .mfc2 rt rd => Sys2Proof.Machine.execMfc2 rt rd s
  | .cfc2 rt rd => Sys2Proof.Machine.execCfc2 rt rd s
  | .mtc2 rt rd => Sys2Proof.Machine.execMtc2 rt rd s
  | .ctc2 rt rd => Sys2Proof.Machine.execCtc2 rt rd s
  | .lwc2 rt imm rs => Sys2Proof.Machine.execLwc2 rt imm rs s
  | .swc2 rt imm rs => Sys2Proof.Machine.execSwc2 rt imm rs s
  | .gteRtps sf lm => Sys2Proof.Machine.execGteRtps sf lm s
  | .gteNclip sf lm => Sys2Proof.Machine.execGteNclip sf lm s
  | .gteOp sf lm => Sys2Proof.Machine.execGteOp sf lm s
  | .gteDpcs sf lm => Sys2Proof.Machine.execGteDpcs sf lm s
  | .gteIntpl sf lm => Sys2Proof.Machine.execGteIntpl sf lm s
  | .gteMvmva sf mx v cv lm => Sys2Proof.Machine.execGteMvmva sf mx v cv lm s
  | .gteNcds sf lm => Sys2Proof.Machine.execGteNcds sf lm s
  | .gteCdp sf lm => Sys2Proof.Machine.execGteCdp sf lm s
  | .gteNcdt sf lm => Sys2Proof.Machine.execGteNcdt sf lm s
  | .gteNccs sf lm => Sys2Proof.Machine.execGteNccs sf lm s
  | .gteCc sf lm => Sys2Proof.Machine.execGteCc sf lm s
  | .gteNcs sf lm => Sys2Proof.Machine.execGteNcs sf lm s
  | .gteNct sf lm => Sys2Proof.Machine.execGteNct sf lm s
  | .gteSqr sf lm => Sys2Proof.Machine.execGteSqr sf lm s
  | .gteDcpl sf lm => Sys2Proof.Machine.execGteDcpl sf lm s
  | .gteDpct sf lm => Sys2Proof.Machine.execGteDpct sf lm s
  | .gteAvsz3 sf lm => Sys2Proof.Machine.execGteAvsz3 sf lm s
  | .gteAvsz4 sf lm => Sys2Proof.Machine.execGteAvsz4 sf lm s
  | .gteRtpt sf lm => Sys2Proof.Machine.execGteRtpt sf lm s
  | .gteGpf sf lm => Sys2Proof.Machine.execGteGpf sf lm s
  | .gteGpl sf lm => Sys2Proof.Machine.execGteGpl sf lm s
  | .gteNcct sf lm => Sys2Proof.Machine.execGteNcct sf lm s
  | .gteUnknown cmd => Sys2Proof.Machine.execGteUnknown cmd s
  | .cop1 cofun => Sys2Proof.Machine.execCop1 cofun s
  | .cop3 cofun => Sys2Proof.Machine.execCop3 cofun s
  | .lwc0 rt imm rs => Sys2Proof.Machine.execLwc0 rt imm rs s
  | .lwc1 rt imm rs => Sys2Proof.Machine.execLwc1 rt imm rs s
  | .lwc3 rt imm rs => Sys2Proof.Machine.execLwc3 rt imm rs s
  | .swc0 rt imm rs => Sys2Proof.Machine.execSwc0 rt imm rs s
  | .swc1 rt imm rs => Sys2Proof.Machine.execSwc1 rt imm rs s
  | .swc3 rt imm rs => Sys2Proof.Machine.execSwc3 rt imm rs s
  | .unimplOp14 => Sys2Proof.Machine.execUnimplOp14 s
  | .unimplOp15 => Sys2Proof.Machine.execUnimplOp15 s
  | .unimplOp16 => Sys2Proof.Machine.execUnimplOp16 s
  | .unimplOp17 => Sys2Proof.Machine.execUnimplOp17 s
  | .unimplOp18 => Sys2Proof.Machine.execUnimplOp18 s
  | .unimplOp19 => Sys2Proof.Machine.execUnimplOp19 s
  | .unimplOp1A => Sys2Proof.Machine.execUnimplOp1A s
  | .unimplOp1B => Sys2Proof.Machine.execUnimplOp1B s
  | .unimplOp1C => Sys2Proof.Machine.execUnimplOp1C s
  | .unimplOp1D => Sys2Proof.Machine.execUnimplOp1D s
  | .unimplOp1E => Sys2Proof.Machine.execUnimplOp1E s
  | .unimplOp1F => Sys2Proof.Machine.execUnimplOp1F s
  | .unimplOp27 => Sys2Proof.Machine.execUnimplOp27 s
  | .unimplOp2C => Sys2Proof.Machine.execUnimplOp2C s
  | .unimplOp2D => Sys2Proof.Machine.execUnimplOp2D s
  | .unimplOp2F => Sys2Proof.Machine.execUnimplOp2F s
  | .unimplOp34 => Sys2Proof.Machine.execUnimplOp34 s
  | .unimplOp35 => Sys2Proof.Machine.execUnimplOp35 s
  | .unimplOp36 => Sys2Proof.Machine.execUnimplOp36 s
  | .unimplOp37 => Sys2Proof.Machine.execUnimplOp37 s
  | .unimplOp3C => Sys2Proof.Machine.execUnimplOp3C s
  | .unimplOp3D => Sys2Proof.Machine.execUnimplOp3D s
  | .unimplOp3E => Sys2Proof.Machine.execUnimplOp3E s
  | .unimplOp3F => Sys2Proof.Machine.execUnimplOp3F s
  | .unimplSpecial01 => Sys2Proof.Machine.execUnimplSpecial01 s
  | .unimplSpecial05 => Sys2Proof.Machine.execUnimplSpecial05 s
  | .unimplSpecial0A => Sys2Proof.Machine.execUnimplSpecial0A s
  | .unimplSpecial0B => Sys2Proof.Machine.execUnimplSpecial0B s
  | .unimplSpecial0E => Sys2Proof.Machine.execUnimplSpecial0E s
  | .unimplSpecial0F => Sys2Proof.Machine.execUnimplSpecial0F s
  | .unimplSpecial14 => Sys2Proof.Machine.execUnimplSpecial14 s
  | .unimplSpecial15 => Sys2Proof.Machine.execUnimplSpecial15 s
  | .unimplSpecial16 => Sys2Proof.Machine.execUnimplSpecial16 s
  | .unimplSpecial17 => Sys2Proof.Machine.execUnimplSpecial17 s
  | .unimplSpecial1C => Sys2Proof.Machine.execUnimplSpecial1C s
  | .unimplSpecial1D => Sys2Proof.Machine.execUnimplSpecial1D s
  | .unimplSpecial1E => Sys2Proof.Machine.execUnimplSpecial1E s
  | .unimplSpecial1F => Sys2Proof.Machine.execUnimplSpecial1F s
  | .unimplSpecial28 => Sys2Proof.Machine.execUnimplSpecial28 s
  | .unimplSpecial29 => Sys2Proof.Machine.execUnimplSpecial29 s
  | .unimplSpecial2C => Sys2Proof.Machine.execUnimplSpecial2C s
  | .unimplSpecial2D => Sys2Proof.Machine.execUnimplSpecial2D s
  | .unimplSpecial2E => Sys2Proof.Machine.execUnimplSpecial2E s
  | .unimplSpecial2F => Sys2Proof.Machine.execUnimplSpecial2F s
  | .unimplSpecial30 => Sys2Proof.Machine.execUnimplSpecial30 s
  | .unimplSpecial31 => Sys2Proof.Machine.execUnimplSpecial31 s
  | .unimplSpecial32 => Sys2Proof.Machine.execUnimplSpecial32 s
  | .unimplSpecial33 => Sys2Proof.Machine.execUnimplSpecial33 s
  | .unimplSpecial34 => Sys2Proof.Machine.execUnimplSpecial34 s
  | .unimplSpecial35 => Sys2Proof.Machine.execUnimplSpecial35 s
  | .unimplSpecial36 => Sys2Proof.Machine.execUnimplSpecial36 s
  | .unimplSpecial37 => Sys2Proof.Machine.execUnimplSpecial37 s
  | .unimplSpecial38 => Sys2Proof.Machine.execUnimplSpecial38 s
  | .unimplSpecial39 => Sys2Proof.Machine.execUnimplSpecial39 s
  | .unimplSpecial3A => Sys2Proof.Machine.execUnimplSpecial3A s
  | .unimplSpecial3B => Sys2Proof.Machine.execUnimplSpecial3B s
  | .unimplSpecial3C => Sys2Proof.Machine.execUnimplSpecial3C s
  | .unimplSpecial3D => Sys2Proof.Machine.execUnimplSpecial3D s
  | .unimplSpecial3E => Sys2Proof.Machine.execUnimplSpecial3E s
  | .unimplSpecial3F => Sys2Proof.Machine.execUnimplSpecial3F s
  | .unimplRegimm02 => Sys2Proof.Machine.execUnimplRegimm02 s
  | .unimplRegimm03 => Sys2Proof.Machine.execUnimplRegimm03 s
  | .unimplRegimm04 => Sys2Proof.Machine.execUnimplRegimm04 s
  | .unimplRegimm05 => Sys2Proof.Machine.execUnimplRegimm05 s
  | .unimplRegimm06 => Sys2Proof.Machine.execUnimplRegimm06 s
  | .unimplRegimm07 => Sys2Proof.Machine.execUnimplRegimm07 s
  | .unimplRegimm08 => Sys2Proof.Machine.execUnimplRegimm08 s
  | .unimplRegimm09 => Sys2Proof.Machine.execUnimplRegimm09 s
  | .unimplRegimm0A => Sys2Proof.Machine.execUnimplRegimm0A s
  | .unimplRegimm0B => Sys2Proof.Machine.execUnimplRegimm0B s
  | .unimplRegimm0C => Sys2Proof.Machine.execUnimplRegimm0C s
  | .unimplRegimm0D => Sys2Proof.Machine.execUnimplRegimm0D s
  | .unimplRegimm0E => Sys2Proof.Machine.execUnimplRegimm0E s
  | .unimplRegimm0F => Sys2Proof.Machine.execUnimplRegimm0F s
  | .unimplRegimm12 => Sys2Proof.Machine.execUnimplRegimm12 s
  | .unimplRegimm13 => Sys2Proof.Machine.execUnimplRegimm13 s
  | .unimplRegimm14 => Sys2Proof.Machine.execUnimplRegimm14 s
  | .unimplRegimm15 => Sys2Proof.Machine.execUnimplRegimm15 s
  | .unimplRegimm16 => Sys2Proof.Machine.execUnimplRegimm16 s
  | .unimplRegimm17 => Sys2Proof.Machine.execUnimplRegimm17 s
  | .unimplRegimm18 => Sys2Proof.Machine.execUnimplRegimm18 s
  | .unimplRegimm19 => Sys2Proof.Machine.execUnimplRegimm19 s
  | .unimplRegimm1A => Sys2Proof.Machine.execUnimplRegimm1A s
  | .unimplRegimm1B => Sys2Proof.Machine.execUnimplRegimm1B s
  | .unimplRegimm1C => Sys2Proof.Machine.execUnimplRegimm1C s
  | .unimplRegimm1D => Sys2Proof.Machine.execUnimplRegimm1D s
  | .unimplRegimm1E => Sys2Proof.Machine.execUnimplRegimm1E s
  | .unimplRegimm1F => Sys2Proof.Machine.execUnimplRegimm1F s

end Sys2Proof.Machine
end

