-- ==== Sys2Proof/WellFormed.lean ====
section
/-! DEFINITION. Which instruction terms stand for words: the catch-all rows of the opcode table
(`cop0_unsupported` at priority 1, `gte_unknown` at priority 2; 30_encoding.md R189) apply only to words no
earlier row matches. Every other operand is a field of its own width. -/

namespace Sys2Proof

/-- A COP0 function field that some row of priority 0 matches: co = 0 with rs one of 0, 2, 4, 6, or co = 1
with funct one of 0x01, 0x02, 0x06, 0x08, 0x10 (R182, R392). -/
def cop0Supported (cofun : BitVec 26) : Bool :=
  let rs := cofun.extractLsb' 21 5
  let funct := cofun.extractLsb' 0 6
  rs == 0x00#5 || rs == 0x02#5 || rs == 0x04#5 || rs == 0x06#5 ||
    (cofun.getLsbD 25 &&
      (funct == 0x01#6 || funct == 0x02#6 || funct == 0x06#6 || funct == 0x08#6 || funct == 0x10#6))

/-- The 22 assigned GTE command numbers (R183). -/
def gteCmdNumbers : List (BitVec 6) :=
  [0x01, 0x06, 0x0C, 0x10, 0x11, 0x12, 0x13, 0x14, 0x16, 0x1B, 0x1C] ++
  [0x1E, 0x20, 0x28, 0x29, 0x2A, 0x2D, 0x2E, 0x30, 0x3D, 0x3E, 0x3F]

/-- The instruction is one that some word decodes to. -/
def Instr.wellFormed : Instr → Bool
  | .cop0Unsupported cofun => !cop0Supported cofun
  | .gteUnknown cmd => !gteCmdNumbers.contains cmd
  | _ => true

end Sys2Proof
end

