-- ==== Sys2Proof/Decode.lean ====
section
/-! DEFINITION. The decoder, total on every byte sequence, and after it the encoder, both from the encoding
tables of 30_encoding.md (R170-R184, R189) and the GTE command word of 45_gte_regs.md R441. Should-be-zero
fields are ignored by the decoder (R184) and written as zero by the encoder. -/

namespace Sys2Proof

/-! ## Fields of a word (R171) -/

def opField (w : Word) : BitVec 6 := w.extractLsb' 26 6
def rsField (w : Word) : BitVec 5 := w.extractLsb' 21 5
def rtField (w : Word) : BitVec 5 := w.extractLsb' 16 5
def rdField (w : Word) : BitVec 5 := w.extractLsb' 11 5
def shamtField (w : Word) : BitVec 5 := w.extractLsb' 6 5
def functField (w : Word) : BitVec 6 := w.extractLsb' 0 6
def immField (w : Word) : BitVec 16 := w.extractLsb' 0 16
def targetField (w : Word) : BitVec 26 := w.extractLsb' 0 26
/-- The coprocessor function field w[25:0]. -/
def cofunField (w : Word) : BitVec 26 := w.extractLsb' 0 26
/-- The coprocessor-op flag w[25]. -/
def coField (w : Word) : Bool := w.getLsbD 25
/-- The code of syscall and break, w[25:6] (R184). -/
def codeField (w : Word) : BitVec 20 := w.extractLsb' 6 20

/-- The register a 5-bit field names (R177). -/
def regOf (b : BitVec 5) : Reg := ⟨b.toNat, b.isLt⟩

def rs (w : Word) : Reg := regOf (rsField w)
def rt (w : Word) : Reg := regOf (rtField w)
def rd (w : Word) : Reg := regOf (rdField w)

/-! ## Fields of a GTE command word (R441) -/

def sfField (w : Word) : Bool := w.getLsbD 19
def lmField (w : Word) : Bool := w.getLsbD 10

def mvmMatrixOf (b : BitVec 2) : MvmMatrix :=
  match b with
  | 0#2 => .rt
  | 1#2 => .llm
  | 2#2 => .lcm
  | _ => .garbage

def mvmVectorOf (b : BitVec 2) : MvmVector :=
  match b with
  | 0#2 => .v0
  | 1#2 => .v1
  | 2#2 => .v2
  | _ => .ir

def mvmTranslationOf (b : BitVec 2) : MvmTranslation :=
  match b with
  | 0#2 => .tr
  | 1#2 => .bk
  | 2#2 => .fc
  | _ => .zero

def mxField (w : Word) : MvmMatrix := mvmMatrixOf (w.extractLsb' 17 2)
def vField (w : Word) : MvmVector := mvmVectorOf (w.extractLsb' 15 2)
def cvField (w : Word) : MvmTranslation := mvmTranslationOf (w.extractLsb' 13 2)

/-! ## The decoder -/

/-- The SPECIAL instruction with this funct (R180, R395). -/
def specialOf (funct : BitVec 6) (w : Word) : Instr :=
  match funct with
  | 0x00#6 => .sll (rd w) (rt w) (shamtField w)
  | 0x01#6 => .unimplSpecial01
  | 0x02#6 => .srl (rd w) (rt w) (shamtField w)
  | 0x03#6 => .sra (rd w) (rt w) (shamtField w)
  | 0x04#6 => .sllv (rd w) (rt w) (rs w)
  | 0x05#6 => .unimplSpecial05
  | 0x06#6 => .srlv (rd w) (rt w) (rs w)
  | 0x07#6 => .srav (rd w) (rt w) (rs w)
  | 0x08#6 => .jr (rs w)
  | 0x09#6 => .jalr (rd w) (rs w)
  | 0x0A#6 => .unimplSpecial0A
  | 0x0B#6 => .unimplSpecial0B
  | 0x0C#6 => .syscall (codeField w)
  | 0x0D#6 => .break_ (codeField w)
  | 0x0E#6 => .unimplSpecial0E
  | 0x0F#6 => .unimplSpecial0F
  | 0x10#6 => .mfhi (rd w)
  | 0x11#6 => .mthi (rs w)
  | 0x12#6 => .mflo (rd w)
  | 0x13#6 => .mtlo (rs w)
  | 0x14#6 => .unimplSpecial14
  | 0x15#6 => .unimplSpecial15
  | 0x16#6 => .unimplSpecial16
  | 0x17#6 => .unimplSpecial17
  | 0x18#6 => .mult (rs w) (rt w)
  | 0x19#6 => .multu (rs w) (rt w)
  | 0x1A#6 => .div (rs w) (rt w)
  | 0x1B#6 => .divu (rs w) (rt w)
  | 0x1C#6 => .unimplSpecial1C
  | 0x1D#6 => .unimplSpecial1D
  | 0x1E#6 => .unimplSpecial1E
  | 0x1F#6 => .unimplSpecial1F
  | 0x20#6 => .add (rd w) (rs w) (rt w)
  | 0x21#6 => .addu (rd w) (rs w) (rt w)
  | 0x22#6 => .sub (rd w) (rs w) (rt w)
  | 0x23#6 => .subu (rd w) (rs w) (rt w)
  | 0x24#6 => .and (rd w) (rs w) (rt w)
  | 0x25#6 => .or (rd w) (rs w) (rt w)
  | 0x26#6 => .xor (rd w) (rs w) (rt w)
  | 0x27#6 => .nor (rd w) (rs w) (rt w)
  | 0x28#6 => .unimplSpecial28
  | 0x29#6 => .unimplSpecial29
  | 0x2A#6 => .slt (rd w) (rs w) (rt w)
  | 0x2B#6 => .sltu (rd w) (rs w) (rt w)
  | 0x2C#6 => .unimplSpecial2C
  | 0x2D#6 => .unimplSpecial2D
  | 0x2E#6 => .unimplSpecial2E
  | 0x2F#6 => .unimplSpecial2F
  | 0x30#6 => .unimplSpecial30
  | 0x31#6 => .unimplSpecial31
  | 0x32#6 => .unimplSpecial32
  | 0x33#6 => .unimplSpecial33
  | 0x34#6 => .unimplSpecial34
  | 0x35#6 => .unimplSpecial35
  | 0x36#6 => .unimplSpecial36
  | 0x37#6 => .unimplSpecial37
  | 0x38#6 => .unimplSpecial38
  | 0x39#6 => .unimplSpecial39
  | 0x3A#6 => .unimplSpecial3A
  | 0x3B#6 => .unimplSpecial3B
  | 0x3C#6 => .unimplSpecial3C
  | 0x3D#6 => .unimplSpecial3D
  | 0x3E#6 => .unimplSpecial3E
  | _ => .unimplSpecial3F

/-- SPECIAL (op = 0): by funct. -/
def decodeSpecial (w : Word) : Instr := specialOf (functField w) w

/-- The REGIMM instruction with this rt (R181, R395). -/
def regimmOf (rt : BitVec 5) (w : Word) : Instr :=
  match rt with
  | 0x00#5 => .bltz (rs w) (immField w)
  | 0x01#5 => .bgez (rs w) (immField w)
  | 0x02#5 => .unimplRegimm02
  | 0x03#5 => .unimplRegimm03
  | 0x04#5 => .unimplRegimm04
  | 0x05#5 => .unimplRegimm05
  | 0x06#5 => .unimplRegimm06
  | 0x07#5 => .unimplRegimm07
  | 0x08#5 => .unimplRegimm08
  | 0x09#5 => .unimplRegimm09
  | 0x0A#5 => .unimplRegimm0A
  | 0x0B#5 => .unimplRegimm0B
  | 0x0C#5 => .unimplRegimm0C
  | 0x0D#5 => .unimplRegimm0D
  | 0x0E#5 => .unimplRegimm0E
  | 0x0F#5 => .unimplRegimm0F
  | 0x10#5 => .bltzal (rs w) (immField w)
  | 0x11#5 => .bgezal (rs w) (immField w)
  | 0x12#5 => .unimplRegimm12
  | 0x13#5 => .unimplRegimm13
  | 0x14#5 => .unimplRegimm14
  | 0x15#5 => .unimplRegimm15
  | 0x16#5 => .unimplRegimm16
  | 0x17#5 => .unimplRegimm17
  | 0x18#5 => .unimplRegimm18
  | 0x19#5 => .unimplRegimm19
  | 0x1A#5 => .unimplRegimm1A
  | 0x1B#5 => .unimplRegimm1B
  | 0x1C#5 => .unimplRegimm1C
  | 0x1D#5 => .unimplRegimm1D
  | 0x1E#5 => .unimplRegimm1E
  | _ => .unimplRegimm1F

/-- REGIMM (op = 1): by rt. -/
def decodeRegimm (w : Word) : Instr := regimmOf (rtField w) w

/-- The COP0 instruction with co = 0 and this rs (R182, R392). -/
def cop0MoveOf (rs : BitVec 5) (w : Word) : Instr :=
  match rs with
  | 0x00#5 => .mfc0 (rt w) (rd w)
  | 0x02#5 => .cfc0 (rt w) (rd w)
  | 0x04#5 => .mtc0 (rt w) (rd w)
  | 0x06#5 => .ctc0 (rt w) (rd w)
  | _ => .cop0Unsupported (cofunField w)

/-- The COP0 instruction with co = 1 and this funct (R182, R392). -/
def cop0OperationOf (funct : BitVec 6) (w : Word) : Instr :=
  match funct with
  | 0x01#6 => .tlbr
  | 0x02#6 => .tlbwi
  | 0x06#6 => .tlbwr
  | 0x08#6 => .tlbp
  | 0x10#6 => .rfe
  | _ => .cop0Unsupported (cofunField w)

/-- COP0 (op = 0x10): by rs when co = 0, by funct when co = 1. -/
def decodeCop0 (w : Word) : Instr :=
  if coField w then cop0OperationOf (functField w) w else cop0MoveOf (rsField w) w

/-- The GTE command with this number, w[5:0] (R183, R441, R442). -/
def gteCommandOf (cmd : BitVec 6) (w : Word) : Instr :=
  match cmd with
  | 0x01#6 => .gteRtps (sfField w) (lmField w)
  | 0x06#6 => .gteNclip (sfField w) (lmField w)
  | 0x0C#6 => .gteOp (sfField w) (lmField w)
  | 0x10#6 => .gteDpcs (sfField w) (lmField w)
  | 0x11#6 => .gteIntpl (sfField w) (lmField w)
  | 0x12#6 => .gteMvmva (sfField w) (mxField w) (vField w) (cvField w) (lmField w)
  | 0x13#6 => .gteNcds (sfField w) (lmField w)
  | 0x14#6 => .gteCdp (sfField w) (lmField w)
  | 0x16#6 => .gteNcdt (sfField w) (lmField w)
  | 0x1B#6 => .gteNccs (sfField w) (lmField w)
  | 0x1C#6 => .gteCc (sfField w) (lmField w)
  | 0x1E#6 => .gteNcs (sfField w) (lmField w)
  | 0x20#6 => .gteNct (sfField w) (lmField w)
  | 0x28#6 => .gteSqr (sfField w) (lmField w)
  | 0x29#6 => .gteDcpl (sfField w) (lmField w)
  | 0x2A#6 => .gteDpct (sfField w) (lmField w)
  | 0x2D#6 => .gteAvsz3 (sfField w) (lmField w)
  | 0x2E#6 => .gteAvsz4 (sfField w) (lmField w)
  | 0x30#6 => .gteRtpt (sfField w) (lmField w)
  | 0x3D#6 => .gteGpf (sfField w) (lmField w)
  | 0x3E#6 => .gteGpl (sfField w) (lmField w)
  | 0x3F#6 => .gteNcct (sfField w) (lmField w)
  | _ => .gteUnknown cmd

/-- A GTE command word: by w[5:0]. -/
def decodeGte (w : Word) : Instr := gteCommandOf (functField w) w

/-- The COP2 instruction with this rs: the four moves, every other word a command (R182, R434). -/
def cop2Of (rs : BitVec 5) (w : Word) : Instr :=
  match rs with
  | 0x00#5 => .mfc2 (rt w) (rd w)
  | 0x02#5 => .cfc2 (rt w) (rd w)
  | 0x04#5 => .mtc2 (rt w) (rd w)
  | 0x06#5 => .ctc2 (rt w) (rd w)
  | _ => decodeGte w

/-- COP2 (op = 0x12): by rs. -/
def decodeCop2 (w : Word) : Instr := cop2Of (rsField w) w

/-- The instruction with this primary opcode (R178, R179). -/
def instructionOf (op : BitVec 6) (w : Word) : Instr :=
  match op with
  | 0x00#6 => decodeSpecial w
  | 0x01#6 => decodeRegimm w
  | 0x10#6 => decodeCop0 w
  | 0x12#6 => decodeCop2 w
  | 0x02#6 => .j (targetField w)
  | 0x03#6 => .jal (targetField w)
  | 0x04#6 => .beq (rs w) (rt w) (immField w)
  | 0x05#6 => .bne (rs w) (rt w) (immField w)
  | 0x06#6 => .blez (rs w) (immField w)
  | 0x07#6 => .bgtz (rs w) (immField w)
  | 0x08#6 => .addi (rt w) (rs w) (immField w)
  | 0x09#6 => .addiu (rt w) (rs w) (immField w)
  | 0x0A#6 => .slti (rt w) (rs w) (immField w)
  | 0x0B#6 => .sltiu (rt w) (rs w) (immField w)
  | 0x0C#6 => .andi (rt w) (rs w) (immField w)
  | 0x0D#6 => .ori (rt w) (rs w) (immField w)
  | 0x0E#6 => .xori (rt w) (rs w) (immField w)
  | 0x0F#6 => .lui (rt w) (immField w)
  | 0x11#6 => .cop1 (cofunField w)
  | 0x13#6 => .cop3 (cofunField w)
  | 0x14#6 => .unimplOp14
  | 0x15#6 => .unimplOp15
  | 0x16#6 => .unimplOp16
  | 0x17#6 => .unimplOp17
  | 0x18#6 => .unimplOp18
  | 0x19#6 => .unimplOp19
  | 0x1A#6 => .unimplOp1A
  | 0x1B#6 => .unimplOp1B
  | 0x1C#6 => .unimplOp1C
  | 0x1D#6 => .unimplOp1D
  | 0x1E#6 => .unimplOp1E
  | 0x1F#6 => .unimplOp1F
  | 0x20#6 => .lb (rt w) (immField w) (rs w)
  | 0x21#6 => .lh (rt w) (immField w) (rs w)
  | 0x22#6 => .lwl (rt w) (immField w) (rs w)
  | 0x23#6 => .lw (rt w) (immField w) (rs w)
  | 0x24#6 => .lbu (rt w) (immField w) (rs w)
  | 0x25#6 => .lhu (rt w) (immField w) (rs w)
  | 0x26#6 => .lwr (rt w) (immField w) (rs w)
  | 0x27#6 => .unimplOp27
  | 0x28#6 => .sb (rt w) (immField w) (rs w)
  | 0x29#6 => .sh (rt w) (immField w) (rs w)
  | 0x2A#6 => .swl (rt w) (immField w) (rs w)
  | 0x2B#6 => .sw (rt w) (immField w) (rs w)
  | 0x2C#6 => .unimplOp2C
  | 0x2D#6 => .unimplOp2D
  | 0x2E#6 => .swr (rt w) (immField w) (rs w)
  | 0x2F#6 => .unimplOp2F
  | 0x30#6 => .lwc0 (rt w) (immField w) (rs w)
  | 0x31#6 => .lwc1 (rt w) (immField w) (rs w)
  | 0x32#6 => .lwc2 (rt w) (immField w) (rs w)
  | 0x33#6 => .lwc3 (rt w) (immField w) (rs w)
  | 0x34#6 => .unimplOp34
  | 0x35#6 => .unimplOp35
  | 0x36#6 => .unimplOp36
  | 0x37#6 => .unimplOp37
  | 0x38#6 => .swc0 (rt w) (immField w) (rs w)
  | 0x39#6 => .swc1 (rt w) (immField w) (rs w)
  | 0x3A#6 => .swc2 (rt w) (immField w) (rs w)
  | 0x3B#6 => .swc3 (rt w) (immField w) (rs w)
  | 0x3C#6 => .unimplOp3C
  | 0x3D#6 => .unimplOp3D
  | 0x3E#6 => .unimplOp3E
  | _ => .unimplOp3F

/-- The instruction a word stands for: by the primary opcode. -/
def decodeWord (w : Word) : Instr := instructionOf (opField w) w

/-- Why a byte sequence is no instruction: every word is one (R189), so only a sequence of fewer than four
bytes is not. -/
inductive DecodeError where
  /-- Fewer than the four bytes of an instruction word (R170). -/
  | truncated
  deriving DecidableEq, Repr

/-- The word four bytes make, least significant byte first (R116, R170). -/
def wordOfBytes (b0 b1 b2 b3 : Byte) : Word := b3 ++ b2 ++ b1 ++ b0

/-- The four bytes of a word, in the order of their addresses (R116). -/
def bytesOfWord (w : Word) : List Byte :=
  [w.extractLsb' 0 8, w.extractLsb' 8 8, w.extractLsb' 16 8, w.extractLsb' 24 8]

/-- Reads one instruction from the bytes, and gives the rest of them. -/
def decode : List Byte → Except DecodeError (Instr × List Byte)
  | b0 :: b1 :: b2 :: b3 :: rest => .ok (decodeWord (wordOfBytes b0 b1 b2 b3), rest)
  | _ => .error .truncated

/-- The instruction the decoder reads from the first `nbits` bits of `w`, the bits above them zero. -/
def decodeTableWord (nbits w : Nat) : Option Instr :=
  match decode (bytesOfWord (BitVec.ofNat 32 (w % 2 ^ nbits))) with
  | .ok (i, _) => some i
  | .error _ => none

/-! ## Classes of instructions the step asks for -/

/-- `IsBranchOrJump` (R312): the rows whose rule is in R315-R325. -/
def Instr.isBranchOrJump : Instr → Bool
  | .j _ | .jal _ | .jr _ | .jalr _ _ | .beq _ _ _ | .bne _ _ _ | .blez _ _ | .bgtz _ _
  | .bltz _ _ | .bgez _ _ | .bltzal _ _ | .bgezal _ _ => true
  | _ => false

/-- The command a GTE command instruction names; none for every other instruction and for an unknown command. -/
def Instr.gteCmd : Instr → Option GteCmd
  | .gteRtps _ _ => some .rtps
  | .gteNclip _ _ => some .nclip
  | .gteOp _ _ => some .op
  | .gteDpcs _ _ => some .dpcs
  | .gteIntpl _ _ => some .intpl
  | .gteMvmva _ _ _ _ _ => some .mvmva
  | .gteNcds _ _ => some .ncds
  | .gteCdp _ _ => some .cdp
  | .gteNcdt _ _ => some .ncdt
  | .gteNccs _ _ => some .nccs
  | .gteCc _ _ => some .cc
  | .gteNcs _ _ => some .ncs
  | .gteNct _ _ => some .nct
  | .gteSqr _ _ => some .sqr
  | .gteDcpl _ _ => some .dcpl
  | .gteDpct _ _ => some .dpct
  | .gteAvsz3 _ _ => some .avsz3
  | .gteAvsz4 _ _ => some .avsz4
  | .gteRtpt _ _ => some .rtpt
  | .gteGpf _ _ => some .gpf
  | .gteGpl _ _ => some .gpl
  | .gteNcct _ _ => some .ncct
  | _ => none

/-- The number w[5:0] of a GTE command (R183). -/
def GteCmd.number : GteCmd → BitVec 6
  | .rtps => 0x01
  | .nclip => 0x06
  | .op => 0x0C
  | .dpcs => 0x10
  | .intpl => 0x11
  | .mvmva => 0x12
  | .ncds => 0x13
  | .cdp => 0x14
  | .ncdt => 0x16
  | .nccs => 0x1B
  | .cc => 0x1C
  | .ncs => 0x1E
  | .nct => 0x20
  | .sqr => 0x28
  | .dcpl => 0x29
  | .dpct => 0x2A
  | .avsz3 => 0x2D
  | .avsz4 => 0x2E
  | .rtpt => 0x30
  | .gpf => 0x3D
  | .gpl => 0x3E
  | .ncct => 0x3F

/-! ## The encoder: formats (R172) -/

/-- The 5-bit field that names a register. -/
def regBits (r : Reg) : BitVec 5 := BitVec.ofNat 5 r.val

/-- op | rs | rt | rd | shamt | funct. -/
def rFormat (op : BitVec 6) (rs rt rd shamt : BitVec 5) (funct : BitVec 6) : Word :=
  op ++ rs ++ rt ++ rd ++ shamt ++ funct

/-- op | rs | rt | imm. -/
def iFormat (op : BitVec 6) (rs rt : BitVec 5) (imm : BitVec 16) : Word := op ++ rs ++ rt ++ imm

/-- op | target (also a coprocessor word, op | cofun). -/
def jFormat (op : BitVec 6) (target : BitVec 26) : Word := op ++ target

/-- op = 0 | code | funct (syscall, break). -/
def codeFormat (code : BitVec 20) (funct : BitVec 6) : Word := (0#6 : BitVec 6) ++ code ++ funct

/-- 0100zz | 1 | 0 | funct: a coprocessor operation with its flag co set. -/
def copOpFormat (op funct : BitVec 6) : Word := op ++ (1#1 : BitVec 1) ++ (0#19 : BitVec 19) ++ funct

def bit (b : Bool) : BitVec 1 := BitVec.ofBool b

def mvmMatrixBits : MvmMatrix → BitVec 2
  | .rt => 0
  | .llm => 1
  | .lcm => 2
  | .garbage => 3

def mvmVectorBits : MvmVector → BitVec 2
  | .v0 => 0
  | .v1 => 1
  | .v2 => 2
  | .ir => 3

def mvmTranslationBits : MvmTranslation → BitVec 2
  | .tr => 0
  | .bk => 1
  | .fc => 2
  | .zero => 3

/-- A GTE command word (R441): bit 25 set as the toolchain sets it, bits 24:20, 12:11 and 9:6 zero (log 15). -/
def gteFormat (sf : Bool) (mx v cv : BitVec 2) (lm : Bool) (cmd : BitVec 6) : Word :=
  (0x12#6 : BitVec 6) ++ (1#1 : BitVec 1) ++ (0#5 : BitVec 5) ++ bit sf ++ mx ++ v ++ cv ++ (0#2 : BitVec 2) ++
    bit lm ++ (0#4 : BitVec 4) ++ cmd

/-- The word of an instruction, should-be-zero fields zero. -/
def encode : Instr → Word
  | .sll rd rt shamt => rFormat 0x00 0 (regBits rt) (regBits rd) shamt 0x00
  | .srl rd rt shamt => rFormat 0x00 0 (regBits rt) (regBits rd) shamt 0x02
  | .sra rd rt shamt => rFormat 0x00 0 (regBits rt) (regBits rd) shamt 0x03
  | .sllv rd rt rs => rFormat 0x00 (regBits rs) (regBits rt) (regBits rd) 0 0x04
  | .srlv rd rt rs => rFormat 0x00 (regBits rs) (regBits rt) (regBits rd) 0 0x06
  | .srav rd rt rs => rFormat 0x00 (regBits rs) (regBits rt) (regBits rd) 0 0x07
  | .jr rs => rFormat 0x00 (regBits rs) 0 0 0 0x08
  | .jalr rd rs => rFormat 0x00 (regBits rs) 0 (regBits rd) 0 0x09
  | .syscall code => codeFormat code 0x0C
  | .break_ code => codeFormat code 0x0D
  | .mfhi rd => rFormat 0x00 0 0 (regBits rd) 0 0x10
  | .mthi rs => rFormat 0x00 (regBits rs) 0 0 0 0x11
  | .mflo rd => rFormat 0x00 0 0 (regBits rd) 0 0x12
  | .mtlo rs => rFormat 0x00 (regBits rs) 0 0 0 0x13
  | .mult rs rt => rFormat 0x00 (regBits rs) (regBits rt) 0 0 0x18
  | .multu rs rt => rFormat 0x00 (regBits rs) (regBits rt) 0 0 0x19
  | .div rs rt => rFormat 0x00 (regBits rs) (regBits rt) 0 0 0x1A
  | .divu rs rt => rFormat 0x00 (regBits rs) (regBits rt) 0 0 0x1B
  | .add rd rs rt => rFormat 0x00 (regBits rs) (regBits rt) (regBits rd) 0 0x20
  | .addu rd rs rt => rFormat 0x00 (regBits rs) (regBits rt) (regBits rd) 0 0x21
  | .sub rd rs rt => rFormat 0x00 (regBits rs) (regBits rt) (regBits rd) 0 0x22
  | .subu rd rs rt => rFormat 0x00 (regBits rs) (regBits rt) (regBits rd) 0 0x23
  | .and rd rs rt => rFormat 0x00 (regBits rs) (regBits rt) (regBits rd) 0 0x24
  | .or rd rs rt => rFormat 0x00 (regBits rs) (regBits rt) (regBits rd) 0 0x25
  | .xor rd rs rt => rFormat 0x00 (regBits rs) (regBits rt) (regBits rd) 0 0x26
  | .nor rd rs rt => rFormat 0x00 (regBits rs) (regBits rt) (regBits rd) 0 0x27
  | .slt rd rs rt => rFormat 0x00 (regBits rs) (regBits rt) (regBits rd) 0 0x2A
  | .sltu rd rs rt => rFormat 0x00 (regBits rs) (regBits rt) (regBits rd) 0 0x2B
  | .j target => jFormat 0x02 target
  | .jal target => jFormat 0x03 target
  | .beq rs rt imm => iFormat 0x04 (regBits rs) (regBits rt) imm
  | .bne rs rt imm => iFormat 0x05 (regBits rs) (regBits rt) imm
  | .blez rs imm => iFormat 0x06 (regBits rs) 0 imm
  | .bgtz rs imm => iFormat 0x07 (regBits rs) 0 imm
  | .addi rt rs imm => iFormat 0x08 (regBits rs) (regBits rt) imm
  | .addiu rt rs imm => iFormat 0x09 (regBits rs) (regBits rt) imm
  | .slti rt rs imm => iFormat 0x0A (regBits rs) (regBits rt) imm
  | .sltiu rt rs imm => iFormat 0x0B (regBits rs) (regBits rt) imm
  | .andi rt rs imm => iFormat 0x0C (regBits rs) (regBits rt) imm
  | .ori rt rs imm => iFormat 0x0D (regBits rs) (regBits rt) imm
  | .xori rt rs imm => iFormat 0x0E (regBits rs) (regBits rt) imm
  | .lui rt imm => iFormat 0x0F 0 (regBits rt) imm
  | .lb rt imm rs => iFormat 0x20 (regBits rs) (regBits rt) imm
  | .lh rt imm rs => iFormat 0x21 (regBits rs) (regBits rt) imm
  | .lwl rt imm rs => iFormat 0x22 (regBits rs) (regBits rt) imm
  | .lw rt imm rs => iFormat 0x23 (regBits rs) (regBits rt) imm
  | .lbu rt imm rs => iFormat 0x24 (regBits rs) (regBits rt) imm
  | .lhu rt imm rs => iFormat 0x25 (regBits rs) (regBits rt) imm
  | .lwr rt imm rs => iFormat 0x26 (regBits rs) (regBits rt) imm
  | .sb rt imm rs => iFormat 0x28 (regBits rs) (regBits rt) imm
  | .sh rt imm rs => iFormat 0x29 (regBits rs) (regBits rt) imm
  | .swl rt imm rs => iFormat 0x2A (regBits rs) (regBits rt) imm
  | .sw rt imm rs => iFormat 0x2B (regBits rs) (regBits rt) imm
  | .swr rt imm rs => iFormat 0x2E (regBits rs) (regBits rt) imm
  | .bltz rs imm => iFormat 0x01 (regBits rs) 0x00 imm
  | .bgez rs imm => iFormat 0x01 (regBits rs) 0x01 imm
  | .bltzal rs imm => iFormat 0x01 (regBits rs) 0x10 imm
  | .bgezal rs imm => iFormat 0x01 (regBits rs) 0x11 imm
  | .mfc0 rt rd => rFormat 0x10 0x00 (regBits rt) (regBits rd) 0 0
  | .cfc0 rt rd => rFormat 0x10 0x02 (regBits rt) (regBits rd) 0 0
  | .mtc0 rt rd => rFormat 0x10 0x04 (regBits rt) (regBits rd) 0 0
  | .ctc0 rt rd => rFormat 0x10 0x06 (regBits rt) (regBits rd) 0 0
  | .tlbr => copOpFormat 0x10 0x01
  | .tlbwi => copOpFormat 0x10 0x02
  | .tlbwr => copOpFormat 0x10 0x06
  | .tlbp => copOpFormat 0x10 0x08
  | .rfe => copOpFormat 0x10 0x10
  | .cop0Unsupported cofun => jFormat 0x10 cofun
  | .mfc2 rt rd => rFormat 0x12 0x00 (regBits rt) (regBits rd) 0 0
  | .cfc2 rt rd => rFormat 0x12 0x02 (regBits rt) (regBits rd) 0 0
  | .mtc2 rt rd => rFormat 0x12 0x04 (regBits rt) (regBits rd) 0 0
  | .ctc2 rt rd => rFormat 0x12 0x06 (regBits rt) (regBits rd) 0 0
  | .lwc2 rt imm rs => iFormat 0x32 (regBits rs) (regBits rt) imm
  | .swc2 rt imm rs => iFormat 0x3A (regBits rs) (regBits rt) imm
  | .gteRtps sf lm => gteFormat sf 0 0 0 lm 0x01
  | .gteNclip sf lm => gteFormat sf 0 0 0 lm 0x06
  | .gteOp sf lm => gteFormat sf 0 0 0 lm 0x0C
  | .gteDpcs sf lm => gteFormat sf 0 0 0 lm 0x10
  | .gteIntpl sf lm => gteFormat sf 0 0 0 lm 0x11
  | .gteMvmva sf mx v cv lm => gteFormat sf (mvmMatrixBits mx) (mvmVectorBits v) (mvmTranslationBits cv) lm 0x12
  | .gteNcds sf lm => gteFormat sf 0 0 0 lm 0x13
  | .gteCdp sf lm => gteFormat sf 0 0 0 lm 0x14
  | .gteNcdt sf lm => gteFormat sf 0 0 0 lm 0x16
  | .gteNccs sf lm => gteFormat sf 0 0 0 lm 0x1B
  | .gteCc sf lm => gteFormat sf 0 0 0 lm 0x1C
  | .gteNcs sf lm => gteFormat sf 0 0 0 lm 0x1E
  | .gteNct sf lm => gteFormat sf 0 0 0 lm 0x20
  | .gteSqr sf lm => gteFormat sf 0 0 0 lm 0x28
  | .gteDcpl sf lm => gteFormat sf 0 0 0 lm 0x29
  | .gteDpct sf lm => gteFormat sf 0 0 0 lm 0x2A
  | .gteAvsz3 sf lm => gteFormat sf 0 0 0 lm 0x2D
  | .gteAvsz4 sf lm => gteFormat sf 0 0 0 lm 0x2E
  | .gteRtpt sf lm => gteFormat sf 0 0 0 lm 0x30
  | .gteGpf sf lm => gteFormat sf 0 0 0 lm 0x3D
  | .gteGpl sf lm => gteFormat sf 0 0 0 lm 0x3E
  | .gteNcct sf lm => gteFormat sf 0 0 0 lm 0x3F
  | .gteUnknown cmd => gteFormat false 0 0 0 false cmd
  | .cop1 cofun => jFormat 0x11 cofun
  | .cop3 cofun => jFormat 0x13 cofun
  | .lwc0 rt imm rs => iFormat 0x30 (regBits rs) (regBits rt) imm
  | .lwc1 rt imm rs => iFormat 0x31 (regBits rs) (regBits rt) imm
  | .lwc3 rt imm rs => iFormat 0x33 (regBits rs) (regBits rt) imm
  | .swc0 rt imm rs => iFormat 0x38 (regBits rs) (regBits rt) imm
  | .swc1 rt imm rs => iFormat 0x39 (regBits rs) (regBits rt) imm
  | .swc3 rt imm rs => iFormat 0x3B (regBits rs) (regBits rt) imm
  | .unimplOp14 => iFormat 0x14 0 0 0
  | .unimplOp15 => iFormat 0x15 0 0 0
  | .unimplOp16 => iFormat 0x16 0 0 0
  | .unimplOp17 => iFormat 0x17 0 0 0
  | .unimplOp18 => iFormat 0x18 0 0 0
  | .unimplOp19 => iFormat 0x19 0 0 0
  | .unimplOp1A => iFormat 0x1A 0 0 0
  | .unimplOp1B => iFormat 0x1B 0 0 0
  | .unimplOp1C => iFormat 0x1C 0 0 0
  | .unimplOp1D => iFormat 0x1D 0 0 0
  | .unimplOp1E => iFormat 0x1E 0 0 0
  | .unimplOp1F => iFormat 0x1F 0 0 0
  | .unimplOp27 => iFormat 0x27 0 0 0
  | .unimplOp2C => iFormat 0x2C 0 0 0
  | .unimplOp2D => iFormat 0x2D 0 0 0
  | .unimplOp2F => iFormat 0x2F 0 0 0
  | .unimplOp34 => iFormat 0x34 0 0 0
  | .unimplOp35 => iFormat 0x35 0 0 0
  | .unimplOp36 => iFormat 0x36 0 0 0
  | .unimplOp37 => iFormat 0x37 0 0 0
  | .unimplOp3C => iFormat 0x3C 0 0 0
  | .unimplOp3D => iFormat 0x3D 0 0 0
  | .unimplOp3E => iFormat 0x3E 0 0 0
  | .unimplOp3F => iFormat 0x3F 0 0 0
  | .unimplSpecial01 => rFormat 0x00 0 0 0 0 0x01
  | .unimplSpecial05 => rFormat 0x00 0 0 0 0 0x05
  | .unimplSpecial0A => rFormat 0x00 0 0 0 0 0x0A
  | .unimplSpecial0B => rFormat 0x00 0 0 0 0 0x0B
  | .unimplSpecial0E => rFormat 0x00 0 0 0 0 0x0E
  | .unimplSpecial0F => rFormat 0x00 0 0 0 0 0x0F
  | .unimplSpecial14 => rFormat 0x00 0 0 0 0 0x14
  | .unimplSpecial15 => rFormat 0x00 0 0 0 0 0x15
  | .unimplSpecial16 => rFormat 0x00 0 0 0 0 0x16
  | .unimplSpecial17 => rFormat 0x00 0 0 0 0 0x17
  | .unimplSpecial1C => rFormat 0x00 0 0 0 0 0x1C
  | .unimplSpecial1D => rFormat 0x00 0 0 0 0 0x1D
  | .unimplSpecial1E => rFormat 0x00 0 0 0 0 0x1E
  | .unimplSpecial1F => rFormat 0x00 0 0 0 0 0x1F
  | .unimplSpecial28 => rFormat 0x00 0 0 0 0 0x28
  | .unimplSpecial29 => rFormat 0x00 0 0 0 0 0x29
  | .unimplSpecial2C => rFormat 0x00 0 0 0 0 0x2C
  | .unimplSpecial2D => rFormat 0x00 0 0 0 0 0x2D
  | .unimplSpecial2E => rFormat 0x00 0 0 0 0 0x2E
  | .unimplSpecial2F => rFormat 0x00 0 0 0 0 0x2F
  | .unimplSpecial30 => rFormat 0x00 0 0 0 0 0x30
  | .unimplSpecial31 => rFormat 0x00 0 0 0 0 0x31
  | .unimplSpecial32 => rFormat 0x00 0 0 0 0 0x32
  | .unimplSpecial33 => rFormat 0x00 0 0 0 0 0x33
  | .unimplSpecial34 => rFormat 0x00 0 0 0 0 0x34
  | .unimplSpecial35 => rFormat 0x00 0 0 0 0 0x35
  | .unimplSpecial36 => rFormat 0x00 0 0 0 0 0x36
  | .unimplSpecial37 => rFormat 0x00 0 0 0 0 0x37
  | .unimplSpecial38 => rFormat 0x00 0 0 0 0 0x38
  | .unimplSpecial39 => rFormat 0x00 0 0 0 0 0x39
  | .unimplSpecial3A => rFormat 0x00 0 0 0 0 0x3A
  | .unimplSpecial3B => rFormat 0x00 0 0 0 0 0x3B
  | .unimplSpecial3C => rFormat 0x00 0 0 0 0 0x3C
  | .unimplSpecial3D => rFormat 0x00 0 0 0 0 0x3D
  | .unimplSpecial3E => rFormat 0x00 0 0 0 0 0x3E
  | .unimplSpecial3F => rFormat 0x00 0 0 0 0 0x3F
  | .unimplRegimm02 => iFormat 0x01 0 0x02 0
  | .unimplRegimm03 => iFormat 0x01 0 0x03 0
  | .unimplRegimm04 => iFormat 0x01 0 0x04 0
  | .unimplRegimm05 => iFormat 0x01 0 0x05 0
  | .unimplRegimm06 => iFormat 0x01 0 0x06 0
  | .unimplRegimm07 => iFormat 0x01 0 0x07 0
  | .unimplRegimm08 => iFormat 0x01 0 0x08 0
  | .unimplRegimm09 => iFormat 0x01 0 0x09 0
  | .unimplRegimm0A => iFormat 0x01 0 0x0A 0
  | .unimplRegimm0B => iFormat 0x01 0 0x0B 0
  | .unimplRegimm0C => iFormat 0x01 0 0x0C 0
  | .unimplRegimm0D => iFormat 0x01 0 0x0D 0
  | .unimplRegimm0E => iFormat 0x01 0 0x0E 0
  | .unimplRegimm0F => iFormat 0x01 0 0x0F 0
  | .unimplRegimm12 => iFormat 0x01 0 0x12 0
  | .unimplRegimm13 => iFormat 0x01 0 0x13 0
  | .unimplRegimm14 => iFormat 0x01 0 0x14 0
  | .unimplRegimm15 => iFormat 0x01 0 0x15 0
  | .unimplRegimm16 => iFormat 0x01 0 0x16 0
  | .unimplRegimm17 => iFormat 0x01 0 0x17 0
  | .unimplRegimm18 => iFormat 0x01 0 0x18 0
  | .unimplRegimm19 => iFormat 0x01 0 0x19 0
  | .unimplRegimm1A => iFormat 0x01 0 0x1A 0
  | .unimplRegimm1B => iFormat 0x01 0 0x1B 0
  | .unimplRegimm1C => iFormat 0x01 0 0x1C 0
  | .unimplRegimm1D => iFormat 0x01 0 0x1D 0
  | .unimplRegimm1E => iFormat 0x01 0 0x1E 0
  | .unimplRegimm1F => iFormat 0x01 0 0x1F 0

end Sys2Proof
end

