-- ==== Sys2Proof/Machine/Hazards.lean ====
section
/-! DEFINITION. The hazard checks and bookkeeping of HAZARD_POLICY = refuse (70_reset_and_hazards.md
R625-R631). Under HAZARD_POLICY = immediate nothing is checked or kept (R624). -/

namespace Sys2Proof.Machine

/-- `Reads(word)`: the general registers the instruction reads, as the table of R631 lists them. -/
def hazardReads (mode : UnalignedMode) : Instr → List Reg
  | .add _ rs rt | .addu _ rs rt | .sub _ rs rt | .subu _ rs rt | .and _ rs rt | .or _ rs rt
  | .xor _ rs rt | .nor _ rs rt | .slt _ rs rt | .sltu _ rs rt => [rs, rt]
  | .sllv _ rt rs | .srlv _ rt rs | .srav _ rt rs => [rs, rt]
  | .sll _ rt _ | .srl _ rt _ | .sra _ rt _ => [rt]
  | .mult rs rt | .multu rs rt | .div rs rt | .divu rs rt => [rs, rt]
  | .beq rs rt _ | .bne rs rt _ => [rs, rt]
  | .sb rt _ rs | .sh rt _ rs | .sw rt _ rs | .swl rt _ rs | .swr rt _ rs => [rs, rt]
  | .mthi rs | .mtlo rs | .jr rs | .jalr _ rs => [rs]
  | .blez rs _ | .bgtz rs _ | .bltz rs _ | .bgez rs _ | .bltzal rs _ | .bgezal rs _ => [rs]
  | .addi _ rs _ | .addiu _ rs _ | .slti _ rs _ | .sltiu _ rs _ | .andi _ rs _ | .ori _ rs _
  | .xori _ rs _ => [rs]
  | .lb _ _ rs | .lbu _ _ rs | .lh _ _ rs | .lhu _ _ rs | .lw _ _ rs | .lwc2 _ _ rs | .swc2 _ _ rs => [rs]
  | .lwl rt _ rs | .lwr rt _ rs =>
    match mode with
    | .approx => [rs]
    | .exact => [rs, rt]
  | .mtc0 rt _ | .mtc2 rt _ | .ctc2 rt _ => [rt]
  | _ => []

/-- The rt of lwl and lwr. -/
def lwlLwrDest : Instr → Option Reg
  | .lwl rt _ _ | .lwr rt _ _ => some rt
  | _ => none

/-- The destination of an instruction whose result the R3000A delivers one instruction late, register 0
excepted (R625, R631). -/
def loadDest : Instr → Option Reg
  | .lb rt _ _ | .lbu rt _ _ | .lh rt _ _ | .lhu rt _ _ | .lw rt _ _ | .lwl rt _ _ | .lwr rt _ _
  | .mfc0 rt _ | .mfc2 rt _ | .cfc2 rt _ => if rt = 0 then none else some rt
  | _ => none

/-- mtc2, ctc2, lwc2 (R627). -/
def writesGteRegister : Instr → Bool
  | .mtc2 _ _ | .ctc2 _ _ | .lwc2 _ _ _ => true
  | _ => false

/-- `IsGteCommand`: a COP2 word that is no move, known or not (R441, R627). -/
def isGteCommand (i : Instr) : Bool :=
  match i with
  | .gteUnknown _ => true
  | _ => i.gteCmd.isSome

/-- mfhi, mflo (R628). -/
def readsHiLo : Instr → Bool
  | .mfhi _ | .mflo _ => true
  | _ => false

/-- mult, multu, div, divu, mthi, mtlo (R628). -/
def writesHiLo : Instr → Bool
  | .mult _ _ | .multu _ _ | .div _ _ | .divu _ _ | .mthi _ | .mtlo _ => true
  | _ => false

/-- The age is 0 or 1 (R631). -/
def recent (age : Option Nat) : Bool :=
  match age with
  | some k => decide (k ≤ 1)
  | none => false

/-- `LwlLwrPair(word, r)`: lwl or lwr with rt = r after lwl or lwr with the same rt (R631, log 12). As R631 defines
it, the pair is exempt in both modes, also where the second instruction's base is that rt; R625 exempts only the
merge read of rt in exact mode (log 23, DESIGN CHOICE). -/
def lwlLwrPair (s : State) (i : Instr) (r : Reg) : Bool :=
  decide (lwlLwrDest i = some r ∧ s.lastLwlLwr = some r)

/-- The instruction reads the destination of the load before it, outside the lwl/lwr pair (R625, R631). -/
def loadDelayHazard (s : State) (i : Instr) : Bool :=
  match s.lastLoadDest with
  | some r => (hazardReads s.cfg.unalignedMode i).contains r && !lwlLwrPair s i r
  | none => false

/-- `HazardCheck(word)`: the refusal, if there is one; nothing is refused under `immediate` (R631). -/
def hazardCheck (i : Instr) (s : State) : Option Refusal :=
  match s.cfg.hazardPolicy with
  | .immediate => none
  | .refuse =>
    if loadDelayHazard s i then some .loadDelayHazard
    else if isGteCommand i && recent s.gteWriteAge then some .gteWriteHazard
    else if writesHiLo i && recent s.hiloReadAge then some .hiLoHazard
    else none

/-- A counter one instruction later: 0 becomes 1, anything else none (R631). -/
def ageOnce (age : Option Nat) : Option Nat :=
  match age with
  | some k => if k < 1 then some (k + 1) else none
  | none => none

/-- The bookkeeping after the instruction, under `refuse` (R631). It is written before the instruction's
meaning runs: no meaning reads it, and an exception clears it, as R631 asks of an instruction that raises
(log 13). -/
def State.noteHazards (s : State) (i : Instr) : State :=
  match s.cfg.hazardPolicy with
  | .immediate => s
  | .refuse =>
    { s with
      lastLoadDest := loadDest i
      lastLwlLwr := lwlLwrDest i
      gteWriteAge := if writesGteRegister i then some 0 else ageOnce s.gteWriteAge
      hiloReadAge := if readsHiLo i then some 0 else ageOnce s.hiloReadAge }

end Sys2Proof.Machine
end

