-- ==== Sys2Proof/Machine/Phases.lean ====
section
/-! DEFINITION. The phases of a step before the instruction's meaning (42_control.md R300-R305,
60_exceptions.md R569-R572). -/

namespace Sys2Proof.Machine

/-- The run an observer looks at has ended: pc = HALT_PC (R314). -/
def State.atHaltPc (s : State) : Bool := decide (s.cfg.haltPc = some s.pc)

/-! ## The inputs of a step (R9, R63, log 3) -/

/-- The `hold` signal this step samples (R301). -/
def State.held (s : State) : Bool :=
  match s.inputs with
  | input :: _ => input.hold
  | [] => false

/-- The state once the step has sampled its inputs: the head of the queue is consumed and its line value is
the last one signalled. -/
def State.sample (s : State) : State :=
  match s.inputs with
  | input :: rest => { s with inputs := rest, lineStatus := input.lineStatus }
  | [] => s

/-! ## The interrupt phase (R302, R569-R572) -/

/-- `IRQ_FROM_LINE(lineStatus)` (R569). -/
def irqFromLine (cfg : Config) (line : BitVec 8) : Bool := cfg.irqTable.getLsbD line.toNat

/-- Cause with IP2 (bit 10) replaced. -/
def setIp2 (cause : Word) (b : Bool) : Word := (cause &&& ~~~(0x400 : Word)) ||| (boolWord b <<< 10)

/-- Cause.IP2 recomputed from the line (R569). -/
def State.updateIp2 (s : State) : State := s.setCop0 13 (setIp2 s.cause (irqFromLine s.cfg s.lineStatus))

/-- An interrupt is pending and not masked: IP2 with IM2, and, with `SW_INTERRUPTS`, IP0 with IM0 or IP1 with
IM1 (R570, R572). -/
def State.interruptPending (s : State) : Bool :=
  (s.cause.getLsbD 10 && s.status.getLsbD 10) ||
    (s.cfg.swInterrupts &&
      ((s.cause.getLsbD 8 && s.status.getLsbD 8) || (s.cause.getLsbD 9 && s.status.getLsbD 9)))

/-- The interrupt is taken: pending and enabled by IEc (R570). -/
def State.takesInterrupt (s : State) : Bool := s.iec && s.interruptPending

/-- The state after taking the interrupt: the instruction at pc is the one EPC names (R571). -/
def State.interrupted (s : State) : State :=
  { s with curPC := s.pc, inDelaySlot := s.branchPending }.enter .int none

/-! ## Fetch and pc advance (R303, R304) -/

/-- pc is no multiple of 4. -/
def State.misalignedPc (s : State) : Bool := misaligned .word s.pc

/-- The state after a fetch address error: AdEL with BadVAddr = pc, the branch state not consumed (R303). -/
def State.fetchError (s : State) : State :=
  { s with curPC := s.pc, inDelaySlot := s.branchPending }.enter .adEL (some s.pc)

/-- The state once `word` is fetched from pc: curPC is its address, and pc the pending target or pc + 4; a
pending branch is consumed, and its instruction is in a delay slot (R303, R304). -/
def State.advance (s : State) (word : Word) : State :=
  { s with
    curPC := s.pc
    word := word
    inDelaySlot := s.branchPending
    pc := if s.branchPending then s.branchTarget else s.pc + 4
    branchPending := false }

/-- The instruction the word is, as the step runs it: what refuses it before its meaning, if anything
(R312, R631). -/
def refusalBefore (i : Instr) (s : State) : Option Refusal :=
  if s.inDelaySlot && i.isBranchOrJump then some .branchInDelaySlot else hazardCheck i s

end Sys2Proof.Machine
end

