-- ==== Sys2Proof/Machine/Run.lean ====
section
/-! DEFINITION. The phases of a step from the interrupt phase to the instruction's meaning (42_control.md
R300-R306, R312). -/

namespace Sys2Proof.Machine

/-- The part of a step after the fetch: the nop is skipped (R305), a branch in a delay slot and a hazard are
refused (R312, R631), every other word runs its instruction (R306). `s` is the state after the pc advance. -/
def runWord (word : Word) (s : State) : Host.Outcome State Fault Refusal :=
  if word = 0 then .next (s.noteHazards (decodeWord word))
  else match refusalBefore (decodeWord word) s with
    | some r => .refused r
    | none => exec (decodeWord word) (s.noteHazards (decodeWord word))

/-- The part of a step after the inputs are sampled and the hold is off: the interrupt phase, then the fetch,
the pc advance and the instruction (R300, R302-R306). -/
def runPhases (s : State) : Host.Outcome State Fault Refusal :=
  let t := s.updateIp2
  if t.takesInterrupt then .next t.interrupted
  else if t.misalignedPc then .next t.fetchError
  else match fetch t.pc t with
    | .error r => .refused r
    | .ok (word, u) => runWord word (u.advance word)

end Sys2Proof.Machine
end

