-- ==== Sys2Proof/Machine/Step.lean ====
section
/-! DEFINITION. One step of the machine (42_control.md R300), and how a program's first instruction is placed
where the step fetches it. -/

namespace Sys2Proof.Machine

/-- One step (R300): the end of the observed run, the hold, then the phases. A held step only consumes the
inputs it sampled (R301, log 3). -/
def step (s : State) : Host.Outcome State Fault Refusal :=
  if s.atHaltPc then .fault .runEnded
  else if s.held then .next s.sample
  else runPhases s.sample

/-- `s` with the instruction word of the low `nbits` bits of `w` stored where the next step fetches: the four
bytes at pc's physical address, in RAM or ROM. Nothing else changes; where pc is in no RAM or ROM range there
is no place to store it and the state stays as it is (log 7). -/
def State.withFetchWord (s : State) (nbits w : Nat) : State :=
  let paddr := translate s.cfg s.pc
  let word := BitVec.ofNat 32 (w % 2 ^ nbits)
  match rangeAt s.cfg paddr with
  | some ⟨base, _, .ram⟩ => s.loadRam (paddr.toNat - base) (bytesOfWord word)
  | some ⟨base, _, .rom⟩ => s.loadRom (paddr.toNat - base) (bytesOfWord word)
  | _ => s

end Sys2Proof.Machine
end

