-- ==== Sys2Proof/Safety.lean ====
section
/-! DEFINITION. The terms claims use: the address map and the place an address is in, frames (what an
instruction leaves), what a load, a store and an exception do seen from outside, invariants, and safe runs. No
instruction reads anything of this file. -/

namespace Sys2Proof

/-! ## The address map (20_memory.md R106-R110, R131) -/

/-- Two intervals of addresses have no address in common. -/
abbrev apart (a m b n : Nat) : Prop := a + m ≤ b ∨ b + n ≤ a

/-- What R109, R110 and R131 say of a map: bases and sizes are multiples of 4, the ranges and the two CPU-local
windows are pairwise disjoint, and there is one RAM range at most. -/
abbrev Config.mapOk (cfg : Config) : Prop :=
  (∀ r ∈ cfg.busRanges, r.base % 4 = 0 ∧ r.size % 4 = 0 ∧
    apart r.base r.size cfg.scratchBase cfg.scratchSize ∧ apart r.base r.size cfg.cacheCtrlAddr 4) ∧
  cfg.busRanges.Pairwise (fun r q => apart r.base r.size q.base q.size) ∧
  (cfg.busRanges.filter fun r => decide (r.device = .ram)).length ≤ 1 ∧
  cfg.scratchBase % 4 = 0 ∧ cfg.scratchSize % 4 = 0 ∧ cfg.cacheCtrlAddr % 4 = 0 ∧
  apart cfg.scratchBase cfg.scratchSize cfg.cacheCtrlAddr 4

end Sys2Proof

namespace Sys2Proof.Machine

/-- Where a data access goes (R104, R109). -/
inductive Place where
  | cpuLocal
  | ram
  | rom
  | device (p : Peripheral)
  | nowhere
  deriving DecidableEq, Repr

/-- The place of a physical address: the CPU-local windows first, then the first range that holds it (R104,
R109). -/
def placeOf (cfg : Config) (paddr : Word) : Place :=
  if inScratch cfg paddr || inCacheCtrl cfg paddr then .cpuLocal
  else match rangeAt cfg paddr with
    | none => .nowhere
    | some r =>
      match r.device with
      | .ram => .ram
      | .rom => .rom
      | .peripheral p => .device p

/-- A place that holds bytes: reading it has no side effect (R122). -/
def Place.isStorage : Place → Bool
  | .cpuLocal | .ram | .rom => true
  | .device _ | .nowhere => false

/-- The bus range a fetch from the physical address would read ends before its `n` bytes do (R110). -/
def busFits (cfg : Config) (paddr : Word) (n : Width) : Bool :=
  match rangeAt cfg paddr with
  | none => true
  | some r => decide (paddr.toNat + n.bytes ≤ r.base + r.size)

/-- The `n` bytes of a data access lie in the window or range its first byte selects (R106, R108, R110). -/
def dataFits (cfg : Config) (paddr : Word) (n : Width) : Bool :=
  if inScratch cfg paddr then decide (paddr.toNat + n.bytes ≤ cfg.scratchBase + cfg.scratchSize)
  else if inCacheCtrl cfg paddr then decide (paddr.toNat + n.bytes ≤ cfg.cacheCtrlAddr + 4)
  else busFits cfg paddr n

/-! ## Frames -/

/-- What an instruction may change, memory apart. Everything that is not named stays. -/
structure Footprint where
  regs : List Reg := []
  cop0 : List Reg := []
  hi : Bool := false
  lo : Bool := false
  gteD : List Reg := []
  gteC : List Reg := []
  branchState : Bool := false
  pc : Bool := false
  diag : Bool := false
  devices : Bool := false
  hazards : Bool := false
  deriving DecidableEq, Repr

/-- From `s` to `t` nothing changed but what the footprint names, and memory. -/
def Frame (f : Footprint) (s t : State) : Prop :=
  (∀ r, r ∉ f.regs → t.getReg r = s.getReg r) ∧
  (∀ n, n ∉ f.cop0 → t.getCop0 n = s.getCop0 n) ∧
  (f.hi = false → t.hi = s.hi) ∧
  (f.lo = false → t.lo = s.lo) ∧
  (∀ n, n ∉ f.gteD → t.gte.getD n = s.gte.getD n) ∧
  (∀ n, n ∉ f.gteC → t.gte.getC n = s.gte.getC n) ∧
  (f.branchState = false → t.branchPending = s.branchPending ∧ t.branchTarget = s.branchTarget) ∧
  (f.pc = false → t.pc = s.pc) ∧
  (f.diag = false → t.diag = s.diag) ∧
  (f.devices = false → t.events = s.events ∧ t.draws = s.draws) ∧
  (f.hazards = false → t.lastLoadDest = s.lastLoadDest ∧ t.lastLwlLwr = s.lastLwlLwr ∧
    t.gteWriteAge = s.gteWriteAge ∧ t.hiloReadAge = s.hiloReadAge) ∧
  t.curPC = s.curPC ∧ t.word = s.word ∧ t.inDelaySlot = s.inDelaySlot ∧ t.cfg = s.cfg ∧
  t.lineStatus = s.lineStatus ∧ t.inputs = s.inputs

/-- Every byte of memory reads as before. -/
def memoryKept (s t : State) : Prop := ∀ a : Word, t.peek a = s.peek a

/-- Every byte outside the `n` bytes at the physical address reads as before. -/
def memoryKeptOutside (paddr : Word) (n : Width) (s t : State) : Prop :=
  ∀ a : Word, (a.toNat < paddr.toNat ∨ paddr.toNat + n.bytes ≤ a.toNat) → t.peek a = s.peek a

/-- Byte `k` of a word, counted from the least significant. -/
def byteOf (v : Word) (k : Nat) : Byte := v.extractLsb' (8 * k) 8

/-- The value a register holds after a write of `v`: register 0 holds 0 (R41). -/
def written (r : Reg) (v : Word) : Word := if r = 0 then 0 else v

/-- The instruction completes, register `r` gets `v`, and nothing else changes. -/
def WritesReg (i : Instr) (s : State) (r : Reg) (v : Word) : Prop :=
  ∃ t, exec i s = .next t ∧ t.getReg r = written r v ∧ Frame { regs := [r] } s t ∧ memoryKept s t

/-- The instruction completes, appends one diagnostic, and nothing else changes. -/
def OnlyRecords (i : Instr) (s : State) (d : Diagnostic) : Prop :=
  ∃ t, exec i s = .next t ∧ t.diag = s.diag ++ [d] ∧ Frame { diag := true } s t ∧ memoryKept s t

/-- The instruction completes as a conditional branch: the target and the pending flag when `c` holds, the branch
state as before when it does not, and nothing else changes but register `link`, if it links (R308-R311). -/
def BranchesIf (i : Instr) (s : State) (c : Prop) (imm : BitVec 16) (link : Option Reg) : Prop :=
  ∃ t, exec i s = .next t ∧
    (c → t.branchPending = true ∧ t.branchTarget = s.pc + (imm.signExtend 32 <<< 2)) ∧
    (¬c → t.branchPending = s.branchPending ∧ t.branchTarget = s.branchTarget) ∧
    (∀ r, link = some r → t.getReg r = written r (s.pc + 4)) ∧
    Frame { regs := link.toList, branchState := true } s t ∧ memoryKept s t

/-- The instruction completes as a jump to `target`, with `link` written if it links (R308-R310). -/
def JumpsTo (i : Instr) (s : State) (target : Word) (link : Option Reg) : Prop :=
  ∃ t, exec i s = .next t ∧ t.branchPending = true ∧ t.branchTarget = target ∧
    (∀ r, link = some r → t.getReg r = written r (s.pc + 4)) ∧
    Frame { regs := link.toList, branchState := true } s t ∧ memoryKept s t

/-- The word whose byte `k` is `f k`. -/
def wordOf (f : Nat → Byte) : Word := wordOfBytes (f 0) (f 1) (f 2) (f 3)

/-! ## Exceptions -/

/-- What exception entry leaves, field by field (60_exceptions.md R562-R567, R585; the hazard bookkeeping as
70_reset_and_hazards.md R631 says). -/
def Entered (code : ExcCode) (badVAddr : Option Word) (s t : State) : Prop :=
  t.getCop0 14 = (if s.inDelaySlot then s.curPC - 4 else s.curPC) ∧
  (t.getCop0 13).getLsbD 31 = s.inDelaySlot ∧
  (t.getCop0 13).extractLsb' 2 5 = code.number ∧
  (∀ k, k ≠ 31 → k < 2 ∨ 6 < k → (t.getCop0 13).getLsbD k = (s.getCop0 13).getLsbD k) ∧
  (t.getCop0 12).extractLsb' 0 6 = (s.getCop0 12).extractLsb' 0 4 ++ (0#2 : BitVec 2) ∧
  (t.getCop0 12).extractLsb' 6 26 = (s.getCop0 12).extractLsb' 6 26 ∧
  t.getCop0 8 = badVAddr.getD (s.getCop0 8) ∧
  t.pc = (if (s.getCop0 12).getLsbD 22 then 0xBFC00180 else 0x80000080) ∧
  t.branchPending = false ∧ t.branchTarget = s.branchTarget ∧
  t.lastLoadDest = none ∧ t.lastLwlLwr = none ∧ t.gteWriteAge = none ∧ t.hiloReadAge = none ∧
  Frame { cop0 := [8, 12, 13, 14], branchState := true, pc := true, hazards := true } s t ∧ memoryKept s t

/-- The instruction takes the exception: the entry of R562 and no write of its own (R568). -/
def Traps (i : Instr) (s : State) (code : ExcCode) (badVAddr : Option Word) : Prop :=
  ∃ t, exec i s = .next t ∧ Entered code badVAddr s t

/-! ## Loads and stores seen from outside -/

/-- The value a data read of `n` bytes at virtual address `ea` gives, and what it records (R104, R109-R114): the
bytes the place holds; a value that fits the width from a device, with an event; 0 and a diagnostic where
nothing answers. -/
def ReadGives (n : Width) (ea : Word) (s : State) (v : Word) (t : State) : Prop :=
  let p := translate s.cfg ea
  match placeOf s.cfg p with
  | .cpuLocal | .ram | .rom =>
    (∀ k, k < n.bytes → s.peek (p + BitVec.ofNat 32 k) = some (byteOf v k)) ∧ v &&& ~~~n.mask = 0 ∧
      t.diag = s.diag ∧ t.events = s.events ∧ t.draws = s.draws
  | .device d =>
    v &&& ~~~n.mask = 0 ∧ t.diag = s.diag ∧ t.events = s.events ++ [.read d p n v]
  | .nowhere =>
    v = 0 ∧ t.diag = s.diag ++ [.unhandledRead p n] ∧ t.events = s.events ∧ t.draws = s.draws

/-- The instruction completes as a load of `n` bytes at `ea` into register `rt`, with `ext` of the value read,
and nothing else changes. -/
def Loads (i : Instr) (n : Width) (ea : Word) (rt : Reg) (ext : Word → Word) (s : State) : Prop :=
  ∃ v t, exec i s = .next t ∧ ReadGives n ea s v t ∧ t.getReg rt = written rt (ext v) ∧
    Frame { regs := [rt], diag := true, devices := true } s t ∧ memoryKept s t

/-- What a data write of the `n` low bytes of `v` at virtual address `ea` does (R104, R109-R115, R125): the bytes
stored in a CPU-local place and in RAM; a diagnostic and no store while IsC is set, in ROM, and where nothing
answers; an event for a device. -/
def WriteDoes (n : Width) (ea v : Word) (s t : State) : Prop :=
  let p := translate s.cfg ea
  let stored : Prop := (∀ k, k < n.bytes → t.peek (p + BitVec.ofNat 32 k) = some (byteOf v k)) ∧
    memoryKeptOutside p n s t ∧ t.diag = s.diag ∧ t.events = s.events ∧ t.draws = s.draws
  let dropped (d : Diagnostic) : Prop :=
    memoryKept s t ∧ t.diag = s.diag ++ [d] ∧ t.events = s.events ∧ t.draws = s.draws
  match placeOf s.cfg p with
  | .cpuLocal => stored
  | .ram => if s.isolated then dropped (.isolatedStore ea n (v &&& n.mask)) else stored
  | .rom =>
    dropped (if s.isolated then .isolatedStore ea n (v &&& n.mask) else .romWrite p n (v &&& n.mask))
  | .device d =>
    if s.isolated then dropped (.isolatedStore ea n (v &&& n.mask))
    else memoryKept s t ∧ t.diag = s.diag ∧ t.events = s.events ++ [.write d p n (v &&& n.mask)] ∧
      t.draws = s.draws
  | .nowhere =>
    dropped (if s.isolated then .isolatedStore ea n (v &&& n.mask) else .unhandledWrite p n (v &&& n.mask))

/-- The instruction completes as a store of the `n` low bytes of `v` at `ea`, and nothing else changes. -/
def Stores (i : Instr) (n : Width) (ea v : Word) (s : State) : Prop :=
  ∃ t, exec i s = .next t ∧ WriteDoes n ea v s t ∧ Frame { diag := true, devices := true } s t

end Sys2Proof.Machine

namespace Sys2Proof

/-! ## Classes of instructions the whole-machine claims name -/

/-- The general register an instruction may write (10_state.md R43). -/
def Instr.gprDest : Instr → Option Reg
  | .add rd _ _ | .addu rd _ _ | .sub rd _ _ | .subu rd _ _ | .and rd _ _ | .or rd _ _ | .xor rd _ _
  | .nor rd _ _ | .slt rd _ _ | .sltu rd _ _ => some rd
  | .sll rd _ _ | .srl rd _ _ | .sra rd _ _ | .sllv rd _ _ | .srlv rd _ _ | .srav rd _ _ => some rd
  | .addi rt _ _ | .addiu rt _ _ | .slti rt _ _ | .sltiu rt _ _ | .andi rt _ _ | .ori rt _ _
  | .xori rt _ _ | .lui rt _ => some rt
  | .mfhi rd | .mflo rd => some rd
  | .lb rt _ _ | .lbu rt _ _ | .lh rt _ _ | .lhu rt _ _ | .lw rt _ _ | .lwl rt _ _ | .lwr rt _ _ => some rt
  | .jal _ | .bltzal _ _ | .bgezal _ _ => some 31
  | .jalr rd _ => some rd
  | .mfc0 rt _ | .mfc2 rt _ | .cfc2 rt _ => some rt
  | _ => none

/-- The instructions that write memory: sb, sh, sw, swl, swr, swc2. -/
def Instr.isStore : Instr → Bool
  | .sb _ _ _ | .sh _ _ _ | .sw _ _ _ | .swl _ _ _ | .swr _ _ _ | .swc2 _ _ _ => true
  | _ => false

/-- The instructions that may raise an exception of their own (60_exceptions.md R561). -/
def Instr.mayRaise : Instr → Bool
  | .add _ _ _ | .addi _ _ _ | .sub _ _ _ | .syscall _ | .break_ _ => true
  | .lh _ _ _ | .lhu _ _ _ | .lw _ _ _ | .lwc2 _ _ _ | .sh _ _ _ | .sw _ _ _ | .swc2 _ _ _ => true
  | _ => false

/-- The COP2 instructions that may write the GTE bank: mtc2, ctc2, lwc2 and the commands (45_gte_regs.md
R420). -/
def Instr.writesGte (i : Instr) : Bool := Machine.writesGteRegister i || i.gteCmd.isSome

/-- The words the block does not implement (44_system.md R393-R395). -/
def Instr.isUnimplemented : Instr → Bool
  | .cop1 _ | .cop3 _ | .lwc0 _ _ _ | .lwc1 _ _ _ | .lwc3 _ _ _ | .swc0 _ _ _ | .swc1 _ _ _
  | .swc3 _ _ _ => true
  | .unimplOp14 | .unimplOp15 | .unimplOp16 | .unimplOp17 | .unimplOp18 | .unimplOp19 | .unimplOp1A
  | .unimplOp1B | .unimplOp1C | .unimplOp1D | .unimplOp1E | .unimplOp1F | .unimplOp27 | .unimplOp2C
  | .unimplOp2D | .unimplOp2F | .unimplOp34 | .unimplOp35 | .unimplOp36 | .unimplOp37 | .unimplOp3C
  | .unimplOp3D | .unimplOp3E | .unimplOp3F => true
  | .unimplSpecial01 | .unimplSpecial05 | .unimplSpecial0A | .unimplSpecial0B | .unimplSpecial0E
  | .unimplSpecial0F | .unimplSpecial14 | .unimplSpecial15 | .unimplSpecial16 | .unimplSpecial17
  | .unimplSpecial1C | .unimplSpecial1D | .unimplSpecial1E | .unimplSpecial1F | .unimplSpecial28
  | .unimplSpecial29 | .unimplSpecial2C | .unimplSpecial2D | .unimplSpecial2E | .unimplSpecial2F
  | .unimplSpecial30 | .unimplSpecial31 | .unimplSpecial32 | .unimplSpecial33 | .unimplSpecial34
  | .unimplSpecial35 | .unimplSpecial36 | .unimplSpecial37 | .unimplSpecial38 | .unimplSpecial39
  | .unimplSpecial3A | .unimplSpecial3B | .unimplSpecial3C | .unimplSpecial3D | .unimplSpecial3E
  | .unimplSpecial3F => true
  | .unimplRegimm02 | .unimplRegimm03 | .unimplRegimm04 | .unimplRegimm05 | .unimplRegimm06
  | .unimplRegimm07 | .unimplRegimm08 | .unimplRegimm09 | .unimplRegimm0A | .unimplRegimm0B
  | .unimplRegimm0C | .unimplRegimm0D | .unimplRegimm0E | .unimplRegimm0F | .unimplRegimm12
  | .unimplRegimm13 | .unimplRegimm14 | .unimplRegimm15 | .unimplRegimm16 | .unimplRegimm17
  | .unimplRegimm18 | .unimplRegimm19 | .unimplRegimm1A | .unimplRegimm1B | .unimplRegimm1C
  | .unimplRegimm1D | .unimplRegimm1E | .unimplRegimm1F => true
  | _ => false

/-- The lm bit of a command (45_gte_regs.md R441). -/
def Instr.lm : Instr → Bool
  | .gteRtps _ lm | .gteNclip _ lm | .gteOp _ lm | .gteDpcs _ lm | .gteIntpl _ lm | .gteMvmva _ _ _ _ lm
  | .gteNcds _ lm | .gteCdp _ lm | .gteNcdt _ lm | .gteNccs _ lm | .gteCc _ lm | .gteNcs _ lm
  | .gteNct _ lm | .gteSqr _ lm | .gteDcpl _ lm | .gteDpct _ lm | .gteAvsz3 _ lm | .gteAvsz4 _ lm
  | .gteRtpt _ lm | .gteGpf _ lm | .gteGpl _ lm | .gteNcct _ lm => lm
  | _ => false

end Sys2Proof

namespace Sys2Proof.Machine

/-! ## Invariants -/

/-- The three byte memories are in canonical form. -/
abbrev State.memoriesWf (s : State) : Prop := s.ram.wf ∧ s.rom.wf ∧ s.scratch.wf

/-- What a hazard counter holds: no instruction yet, or 0, or 1 (R631). -/
abbrev ageWf (age : Option Nat) : Prop := age = none ∨ age = some 0 ∨ age = some 1

/-- The hazard bookkeeping: absent under `immediate`; under `refuse` register 0 is no load destination, the
counters stay below 2, and an lwl/lwr destination other than register 0 is the load destination (R64, R631,
log 12). -/
abbrev State.hazardsWf (s : State) : Prop :=
  (s.cfg.hazardPolicy = .immediate →
    s.lastLoadDest = none ∧ s.lastLwlLwr = none ∧ s.gteWriteAge = none ∧ s.hiloReadAge = none) ∧
  s.lastLoadDest ≠ some 0 ∧ ageWf s.gteWriteAge ∧ ageWf s.hiloReadAge ∧
  (∀ r, s.lastLwlLwr = some r → r = 0 ∨ s.lastLoadDest = some r)

/-- The invariant of the machine: canonical memories, register 0's storage 0 (R41), the bookkeeping as it
should be. -/
abbrev State.Inv (s : State) : Prop := s.memoriesWf ∧ s.regs[(0 : Reg)] = 0 ∧ s.hazardsWf

/-- The word is a 16-bit value kept sign-extended. -/
abbrev signed16 (w : Word) : Prop := (w.setWidth 16).signExtend 32 = w

/-- The word is a 16-bit value kept zero-extended. -/
abbrev unsigned16 (w : Word) : Prop := (w.setWidth 16).setWidth 32 = w

/-- FLAG as 45_gte_regs.md R426-R428 say: bits 11:0 zero, bit 31 the OR of the error bits. -/
abbrev flagWf (w : Word) : Prop :=
  w.setWidth 12 = 0 ∧ w.getLsbD 31 = decide (w &&& 0x7F87E000 ≠ 0)

/-- The data registers that hold signed 16-bit values (R421). -/
def signedD : List Reg := [1, 3, 5, 8, 9, 10, 11]

/-- The data registers that hold unsigned 16-bit values (R421). -/
def unsignedD : List Reg := [7, 16, 17, 18, 19]

/-- The control registers that hold signed 16-bit values (R422, R425). -/
def signedC : List Reg := [4, 12, 20, 27, 29, 30]

/-- Under `field`, every 16-bit register of the bank holds a 16-bit value, and FLAG is as R426-R428 say. -/
abbrev Gte.fieldWf (g : Gte) : Prop :=
  (∀ n ∈ signedD, signed16 (g.getD n)) ∧ (∀ n ∈ unsignedD, unsigned16 (g.getD n)) ∧
  (∀ n ∈ signedC, signed16 (g.getC n)) ∧ unsigned16 (g.getC 26) ∧ flagWf (g.getC 31)

/-! ## GTE commands -/

/-- The data registers a command may write: OTZ, IR0-IR3, the three FIFOs, MAC0-MAC3 (R421). -/
def commandD : List Reg :=
  [7, 8, 9, 10, 11, 12, 13, 14, 16, 17, 18, 19, 20, 21, 22, 24, 25, 26, 27]

/-- The MAC register of a component. -/
def Lane.mac : Lane → Reg
  | .l1 => 25
  | .l2 => 26
  | .l3 => 27

/-- The IR register of a component. -/
def Lane.ir : Lane → Reg
  | .l1 => 9
  | .l2 => 10
  | .l3 => 11

/-- The command completes, and `P` holds of the bank it leaves. -/
def Commands (i : Instr) (s : State) (P : Gte → Prop) : Prop := ∃ t, exec i s = .next t ∧ P t.gte

/-- IR1-IR3 hold MAC1-MAC3 saturated (R480, R488). -/
def irsFollowMacs (lm : Bool) (g : Gte) : Prop :=
  ∀ l : Lane, (g.getD l.ir).toInt = clamp (g.getD l.mac).toInt (if lm then 0 else -32768) 32767

/-- RGB2 holds the colour of MAC1-MAC3 and the CODE of RGBC (R431, R490). -/
def colourFollowsMacs (g : Gte) : Prop :=
  (∀ l : Lane, ((byteOf (g.getD 22) (l.index - 1)).toNat : Int) = clamp ((g.getD l.mac).toInt >>> 4) 0 255) ∧
  byteOf (g.getD 22) 3 = byteOf (g.getD 6) 3

/-! ## GTE operands by register number, and results on integers

Written from the registers and halves of 45_gte_regs.md R421, R422 and the formulas of 46_gte_commands.md, apart
from the readers and the staged computation the commands use. -/

/-- Three integers, one for each component. -/
abbrev Lanes := Lane → Int

/-- Bits 15:0 as a signed number. -/
def lowHalf (w : Word) : Int := (w.setWidth 16).toInt

/-- Bits 31:16 as a signed number. -/
def highHalf (w : Word) : Int := ((w >>> 16).setWidth 16).toInt

/-- Element (i, j) of the matrix in the control registers b to b + 4: RT at 0, LLM at 8, LCM at 16 (R422). -/
def matrixAt (g : Gte) (b : Reg) (i j : Lane) : Int :=
  match i, j with
  | .l1, .l1 => lowHalf (g.getC b)
  | .l1, .l2 => highHalf (g.getC b)
  | .l1, .l3 => lowHalf (g.getC (b + 1))
  | .l2, .l1 => highHalf (g.getC (b + 1))
  | .l2, .l2 => lowHalf (g.getC (b + 2))
  | .l2, .l3 => highHalf (g.getC (b + 2))
  | .l3, .l1 => lowHalf (g.getC (b + 3))
  | .l3, .l2 => highHalf (g.getC (b + 3))
  | .l3, .l3 => lowHalf (g.getC (b + 4))

/-- The signed words of the control registers b, b + 1, b + 2: TR at 5, BK at 13, FC at 21 (R422). -/
def wordsAt (g : Gte) (b : Reg) : Lanes
  | .l1 => (g.getC b).toInt
  | .l2 => (g.getC (b + 1)).toInt
  | .l3 => (g.getC (b + 2)).toInt

/-- The vector in the data registers b (VX, VY) and b + 1 (VZ): V0 at 0, V1 at 2, V2 at 4 (R421). -/
def vectorAt (g : Gte) (b : Reg) : Lanes
  | .l1 => lowHalf (g.getD b)
  | .l2 => highHalf (g.getD b)
  | .l3 => lowHalf (g.getD (b + 1))

/-- The first data register of the vector of vertex 0, 1, 2 (R421). -/
def Lane.vertexReg : Lane → Reg
  | .l1 => 0
  | .l2 => 2
  | .l3 => 4

/-- IR1, IR2, IR3, from the data registers 9 to 11 (R421). -/
def irsAt (g : Gte) : Lanes := fun l => lowHalf (g.getD l.ir)

/-- R, G, B: the bytes 0, 1, 2 of a colour word (R421). -/
def bytesAt (w : Word) : Lanes := fun l => (byteOf w (l.index - 1)).toNat

/-- Wrapped to 44 bits, signed (R478). -/
def wrapped44 (x : Int) : Int := (x + 2 ^ 43) % 2 ^ 44 - 2 ^ 43

/-- Floor division by 2^shift, with shift = 12 * sf (R441). -/
def shifted (sf : Bool) (x : Int) : Int := if sf then x / 4096 else x

/-- What a MAC register holds of a sum, and the signed number it reads as (R487). -/
def macWord (sf : Bool) (x : Int) : Word := BitVec.ofInt 32 (shifted sf x)
def macInt (sf : Bool) (x : Int) : Int := (macWord sf x).toInt

/-- `Lm_B`'s value (R480). -/
def irOf (lm : Bool) (x : Int) : Int := clamp x (if lm then 0 else -0x8000) 0x7FFF

/-- The IR vector that follows from the sums of a step (R488). -/
def irsOf (sf lm : Bool) (sum : Lanes) : Lanes := fun l => irOf lm (macInt sf (sum l))

/-- `MulMV`'s sums, each wrapped once (R487). -/
def mulSum (m : Lane → Lanes) (v t : Lanes) : Lanes := fun i =>
  wrapped44 (t i * 4096 + m i .l1 * v .l1 + m i .l2 * v .l2 + m i .l3 * v .l3)

/-- The three values `MulMV` checks for a component before wrapping them (R478, R487). -/
def mulPartials (m : Lane → Lanes) (v t : Lanes) (i : Lane) : List Int :=
  let a := t i * 4096 + m i .l1 * v .l1
  let b := wrapped44 a + m i .l2 * v .l2
  [a, b, wrapped44 b + m i .l3 * v .l3]

/-- FLAG bit n is one of 30 to 25 and the 44-bit check that sets it fails for one of the values listed (R478). -/
def macFlag (xs : Lane → List Int) (n : Nat) : Prop :=
  ∃ i : Lane, (n = 31 - i.index ∧ ∃ x ∈ xs i, x > 2 ^ 43 - 1) ∨ (n = 28 - i.index ∧ ∃ x ∈ xs i, x < -2 ^ 43)

/-- The value is outside lo..hi. -/
abbrev outside (x lo hi : Int) : Prop := x < lo ∨ hi < x

/-- FLAG bit n is the IR bit of a component whose value is outside the IR range (R480). -/
def irFlag (lm : Bool) (x : Lanes) (n : Nat) : Prop :=
  ∃ i : Lane, n = 25 - i.index ∧ outside (x i) (if lm then 0 else -0x8000) 0x7FFF

/-! ### The matrix of MVMVA (R505) -/

def mvmMatrixAt (g : Gte) : MvmMatrix → Lane → Lanes
  | .rt => matrixAt g 0
  | .llm => matrixAt g 8
  | .lcm => matrixAt g 16
  | .garbage => fun i j =>
    match i, j with
    | .l1, .l1 => -(bytesAt (g.getD 6) .l1 * 16)
    | .l1, .l2 => bytesAt (g.getD 6) .l1 * 16
    | .l1, .l3 => lowHalf (g.getD 8)
    | .l2, _ => lowHalf (g.getC 1)
    | .l3, _ => lowHalf (g.getC 2)

def mvmVectorAt (g : Gte) : MvmVector → Lanes
  | .v0 => vectorAt g 0
  | .v1 => vectorAt g 2
  | .v2 => vectorAt g 4
  | .ir => irsAt g

def mvmTranslationAt (g : Gte) : MvmTranslation → Lanes
  | .tr => wordsAt g 5
  | .bk => wordsAt g 13
  | .fc => wordsAt g 21
  | .zero => fun _ => 0

/-! ### Light and colour (R489, R491) -/

/-- The sums of `Light(k)`: the light matrix on the vertex, then the light colour matrix on the IR vector that
gives. -/
def lightSum (g : Gte) (sf lm : Bool) (k : Lane) : Lanes :=
  mulSum (matrixAt g 16) (irsOf sf lm (mulSum (matrixAt g 8) (vectorAt g k.vertexReg) fun _ => 0)) (wordsAt g 13)

/-- The sums of the light step that starts from IR1-IR3 (R507, R510). -/
def irLightSum (g : Gte) : Lanes := mulSum (matrixAt g 16) (irsAt g) (wordsAt g 13)

/-- (C_i * IR_i) << 4, C the bytes of RGBC. -/
def tint (g : Gte) (ir : Lanes) : Lanes := fun l => bytesAt (g.getD 6) l * ir l * 16

/-- The sums of `ColourOnly` for an IR vector. -/
def tintSum (g : Gte) (ir : Lanes) : Lanes := fun l => wrapped44 (tint g ir l)

/-- The sums of `Interp` for unshifted bases. -/
def cueSum (g : Gte) (sf : Bool) (base : Lanes) : Lanes := fun l =>
  let b := wrapped44 (base l)
  let far := clamp (shifted sf (wrapped44 (wordsAt g 21 l * 4096 - b))) (-0x8000) 0x7FFF
  wrapped44 (far * lowHalf (g.getD 8) + b)

/-- The colour word of a step's sums: MAC_i >> 4 clamped to a byte, and the CODE of RGBC (R431, R490). -/
def colourOfSum (g : Gte) (sf : Bool) (sum : Lanes) (w : Word) : Prop :=
  (∀ l : Lane, bytesAt w l = clamp (macInt sf (sum l) / 16) 0 0xFF) ∧ byteOf w 3 = byteOf (g.getD 6) 3

/-! ### Perspective (R500) -/

/-- The sums of `Rtp(k)`. -/
def perspSum (g : Gte) (k : Lane) : Lanes := mulSum (matrixAt g 0) (vectorAt g k.vertexReg) (wordsAt g 5)

def perspIr (g : Gte) (sf lm : Bool) (k : Lane) : Lanes := irsOf sf lm (perspSum g k)

/-- z, and the depth pushed. -/
def perspZ (g : Gte) (k : Lane) : Int := perspSum g k .l3 / 4096
def perspSz (g : Gte) (k : Lane) : Int := clamp (perspZ g k) 0 0xFFFF

/-- The projection plane distance, and the factor `Divide` gives; DivisionBounds states its value. -/
def planeH (g : Gte) : Nat := (g.getC 26).toNat % 65536
def perspFactor (g : Gte) (k : Lane) : Int := (divide (planeH g) (perspSz g k).toNat).val

def perspX (g : Gte) (sf lm : Bool) (k : Lane) : Int :=
  perspFactor g k * perspIr g sf lm k .l1 + (g.getC 24).toInt

def perspY (g : Gte) (sf lm : Bool) (k : Lane) : Int :=
  perspFactor g k * perspIr g sf lm k .l2 + (g.getC 25).toInt

/-- The depth-cue value q. -/
def perspCue (g : Gte) (k : Lane) : Int := perspFactor g k * lowHalf (g.getC 27) + (g.getC 28).toInt

/-- The screen point pushed for a vertex. -/
def screenPoint (g : Gte) (sf lm : Bool) (k : Lane) (w : Word) : Prop :=
  lowHalf w = clamp (perspX g sf lm k / 65536) (-0x400) 0x3FF ∧
  highHalf w = clamp (perspY g sf lm k / 65536) (-0x400) 0x3FF

/-- What the last vertex leaves: MAC1-MAC3, IR1-IR3, and the depth cue in MAC0 and IR0. -/
def perspLeaves (g : Gte) (sf lm : Bool) (k : Lane) (t : Gte) : Prop :=
  (∀ l : Lane, t.getD l.mac = macWord sf (perspSum g k l) ∧ (t.getD l.ir).toInt = perspIr g sf lm k l) ∧
  t.getD 24 = BitVec.ofInt 32 (perspCue g k) ∧
  (t.getD 8).toInt = clamp (perspCue g k / 4096) 0 0x1000

/-- FLAG bit n is set by the transformation of vertex k: the 44-bit checks, IR1 and IR2 from MAC1 and MAC2, IR3
from z whatever sf is, the depth, the division, the MAC0 checks of x and y, the screen coordinates. -/
def perspFlag (g : Gte) (sf lm : Bool) (k : Lane) (n : Nat) : Prop :=
  let mac (l : Lane) : Int := macInt sf (perspSum g k l)
  let x := perspX g sf lm k
  let y := perspY g sf lm k
  macFlag (mulPartials (matrixAt g 0) (vectorAt g k.vertexReg) (wordsAt g 5)) n ∨
  (n = 24 ∧ outside (mac .l1) (if lm then 0 else -0x8000) 0x7FFF) ∨
  (n = 23 ∧ outside (mac .l2) (if lm then 0 else -0x8000) 0x7FFF) ∨
  (n = 22 ∧ outside (perspZ g k) (-0x8000) 0x7FFF) ∨
  (n = 18 ∧ outside (perspZ g k) 0 0xFFFF) ∨
  (n = 17 ∧ 2 * perspSz g k ≤ planeH g) ∨
  (n = 16 ∧ (x > 2 ^ 31 - 1 ∨ y > 2 ^ 31 - 1)) ∨
  (n = 15 ∧ (x < -2 ^ 31 ∨ y < -2 ^ 31)) ∨
  (n = 14 ∧ outside (x / 65536) (-0x400) 0x3FF) ∨
  (n = 13 ∧ outside (y / 65536) (-0x400) 0x3FF)

/-- FLAG bit n is set by the depth cue of the last vertex. -/
def cueFlag (g : Gte) (k : Lane) (n : Nat) : Prop :=
  (n = 16 ∧ perspCue g k > 2 ^ 31 - 1) ∨ (n = 15 ∧ perspCue g k < -2 ^ 31) ∨
  (n = 12 ∧ outside (perspCue g k / 4096) 0 0x1000)

/-- FLAG holds exactly the bits `f` names, and bit 31 the OR of the error bits (R426, R428, R477). -/
def flagIs (t : Gte) (f : Nat → Prop) : Prop :=
  flagWf (t.getC 31) ∧ ∀ n, n ≠ 31 → ((t.getC 31).getLsbD n = true ↔ f n)

/-! ## Words by their fields: the table of 70_reset_and_hazards.md R631 -/

/-- The word reads the register its bits 25:21 name. -/
def readsRs (w : Word) : Prop :=
  (opField w = 0x00 ∧ functField w ∈ ([0x04, 0x06, 0x07, 0x08, 0x09, 0x11, 0x13, 0x18, 0x19, 0x1A, 0x1B] ++
    [0x20, 0x21, 0x22, 0x23, 0x24, 0x25, 0x26, 0x27, 0x2A, 0x2B] : List (BitVec 6))) ∨
  (opField w = 0x01 ∧ rtField w ∈ ([0x00, 0x01, 0x10, 0x11] : List (BitVec 5))) ∨
  opField w ∈ ([0x04, 0x05, 0x06, 0x07, 0x08, 0x09, 0x0A, 0x0B, 0x0C, 0x0D, 0x0E] ++
    [0x20, 0x21, 0x22, 0x23, 0x24, 0x25, 0x26, 0x28, 0x29, 0x2A, 0x2B, 0x2E, 0x32, 0x3A] : List (BitVec 6))

/-- The word reads the register its bits 20:16 name. -/
def readsRt (mode : UnalignedMode) (w : Word) : Prop :=
  (opField w = 0x00 ∧ functField w ∈ ([0x00, 0x02, 0x03, 0x04, 0x06, 0x07, 0x18, 0x19, 0x1A, 0x1B] ++
    [0x20, 0x21, 0x22, 0x23, 0x24, 0x25, 0x26, 0x27, 0x2A, 0x2B] : List (BitVec 6))) ∨
  opField w ∈ ([0x04, 0x05, 0x28, 0x29, 0x2A, 0x2B, 0x2E] : List (BitVec 6)) ∨
  (opField w ∈ ([0x22, 0x26] : List (BitVec 6)) ∧ mode = .exact) ∨
  (opField w = 0x10 ∧ rsField w = 0x04) ∨
  (opField w = 0x12 ∧ rsField w ∈ ([0x04, 0x06] : List (BitVec 5)))

/-- `r ∈ Reads(word)`. -/
def wordReads (mode : UnalignedMode) (w : Word) (r : Reg) : Prop :=
  (readsRs w ∧ rsField w = regBits r) ∨ (readsRt mode w ∧ rtField w = regBits r)

/-- lwl or lwr with this rt. -/
def wordLwlLwr (w : Word) (r : Reg) : Prop :=
  opField w ∈ ([0x22, 0x26] : List (BitVec 6)) ∧ rtField w = regBits r

/-- lb, lbu, lh, lhu, lw, lwl, lwr, mfc0, mfc2 or cfc2 with this rt, which is not register 0. -/
def wordLoads (w : Word) (r : Reg) : Prop :=
  (opField w ∈ ([0x20, 0x21, 0x22, 0x23, 0x24, 0x25, 0x26] : List (BitVec 6)) ∨
    (opField w = 0x10 ∧ rsField w = 0x00) ∨
    (opField w = 0x12 ∧ rsField w ∈ ([0x00, 0x02] : List (BitVec 5)))) ∧
  rtField w = regBits r ∧ r ≠ 0

/-- A GTE command word (45_gte_regs.md R441). -/
def wordGteCommand (w : Word) : Prop :=
  opField w = 0x12 ∧ rsField w ∉ ([0x00, 0x02, 0x04, 0x06] : List (BitVec 5))

/-- mtc2, ctc2 or lwc2. -/
def wordWritesGte (w : Word) : Prop :=
  (opField w = 0x12 ∧ rsField w ∈ ([0x04, 0x06] : List (BitVec 5))) ∨ opField w = 0x32

/-- mult, multu, div, divu, mthi or mtlo. -/
def wordWritesHiLo (w : Word) : Prop :=
  opField w = 0x00 ∧ functField w ∈ ([0x11, 0x13, 0x18, 0x19, 0x1A, 0x1B] : List (BitVec 6))

/-- mfhi or mflo. -/
def wordReadsHiLo (w : Word) : Prop :=
  opField w = 0x00 ∧ functField w ∈ ([0x10, 0x12] : List (BitVec 6))

/-- The age after an instruction: 0 when it starts the count, else one more while it was 0, else none. -/
def AgesTo (starts : Prop) (old new : Option Nat) : Prop :=
  (starts → new = some 0) ∧ (¬starts → new = if old = some 0 then some 1 else none)

/-! ## Steps -/

/-- The step of `s` gets as far as the instruction `word`: it is not held, takes no interrupt, and fetches `word`
from an aligned pc; `u` is the state after the pc advance (R300). -/
def Reaches (s : State) (word : Word) (u : State) : Prop :=
  s.atHaltPc = false ∧ s.held = false ∧ s.sample.updateIp2.takesInterrupt = false ∧
  s.pc.toNat % 4 = 0 ∧
  ∃ v, fetch s.pc s.sample.updateIp2 = .ok (word, v) ∧ u = v.advance word

/-! ## Runs -/

/-- `k` steps, stopping at the first fault or refusal. -/
def runSteps : Nat → State → Result
  | 0, s => .next s
  | k + 1, s =>
    match step s with
    | .next t => runSteps k t
    | .fault e => .fault e
    | .refused e => .refused e

/-- A safe run of `k` steps: each step answers a next state and none records a diagnostic, the premise
10_state.md R62 names for a claim that excludes the log-and-continue paths. -/
def SafeRun (k : Nat) (s : State) : Prop := ∃ t, runSteps k s = .next t ∧ t.diag = s.diag

/-! ## Two runs compared -/

/-- The outcome with its next state changed by `f`. -/
def mapNext (f : State → State) : Result → Result
  | .next s => .next (f s)
  | .fault e => .fault e
  | .refused e => .refused e

/-- The state with the three mode bits KUc, KUp, KUo of Status cleared (R52). -/
def State.forgetMode (s : State) : State := s.setCop0 12 (s.status &&& ~~~(0x2A : Word))

end Sys2Proof.Machine
end

