-- ==== Sys2Proof/Certificates/Slice0/Obligations.lean ====
section
/-! DEFINITION. The statements about the model, for the provers. Each formalises what the numbered rules of spec/
say; its entry in OBLIGATIONS.json names them. -/

open Sys2Proof Sys2Proof.Machine

/-! ## Encoding -/

/-- Decoding the word the encoder writes for an instruction gives the instruction back, as a word and as the first
four bytes of any byte sequence. -/
def Obligations.DecodeOfEncode : Prop :=
  ∀ i : Instr, i.wellFormed = true →
    decodeWord (encode i) = i ∧ ∀ rest, decode (bytesOfWord (encode i) ++ rest) = .ok (i, rest)

/-- No word is left without an instruction, and the catch-all rows get only words no other row matches (R186,
R189). -/
def Obligations.DecodeGivesWellFormed : Prop := ∀ w : Word, (decodeWord w).wellFormed = true

/-- The fields R184 lists are ignored: whatever they hold, the word decodes to the same instruction, and the code
of syscall and break has no effect on what they do. -/
def Obligations.ShouldBeZeroFieldsIgnored : Prop :=
  (∀ (rd rt : Reg) (x sh : BitVec 5),
    decodeWord (rFormat 0x00 x (regBits rt) (regBits rd) sh 0x00) = .sll rd rt sh ∧
    decodeWord (rFormat 0x00 x (regBits rt) (regBits rd) sh 0x02) = .srl rd rt sh ∧
    decodeWord (rFormat 0x00 x (regBits rt) (regBits rd) sh 0x03) = .sra rd rt sh) ∧
  (∀ (rd rs : Reg) (x y z : BitVec 5),
    decodeWord (rFormat 0x00 (regBits rs) x y z 0x08) = .jr rs ∧
    decodeWord (rFormat 0x00 (regBits rs) x (regBits rd) z 0x09) = .jalr rd rs ∧
    decodeWord (rFormat 0x00 x y (regBits rd) z 0x10) = .mfhi rd ∧
    decodeWord (rFormat 0x00 (regBits rs) x y z 0x11) = .mthi rs ∧
    decodeWord (rFormat 0x00 x y (regBits rd) z 0x12) = .mflo rd ∧
    decodeWord (rFormat 0x00 (regBits rs) x y z 0x13) = .mtlo rs) ∧
  (∀ (rs rt : Reg) (x z : BitVec 5),
    decodeWord (rFormat 0x00 (regBits rs) (regBits rt) x z 0x18) = .mult rs rt ∧
    decodeWord (rFormat 0x00 (regBits rs) (regBits rt) x z 0x19) = .multu rs rt ∧
    decodeWord (rFormat 0x00 (regBits rs) (regBits rt) x z 0x1A) = .div rs rt ∧
    decodeWord (rFormat 0x00 (regBits rs) (regBits rt) x z 0x1B) = .divu rs rt) ∧
  (∀ (rd rs rt : Reg) (z : BitVec 5),
    decodeWord (rFormat 0x00 (regBits rs) (regBits rt) (regBits rd) z 0x04) = .sllv rd rt rs ∧
    decodeWord (rFormat 0x00 (regBits rs) (regBits rt) (regBits rd) z 0x06) = .srlv rd rt rs ∧
    decodeWord (rFormat 0x00 (regBits rs) (regBits rt) (regBits rd) z 0x07) = .srav rd rt rs ∧
    decodeWord (rFormat 0x00 (regBits rs) (regBits rt) (regBits rd) z 0x20) = .add rd rs rt ∧
    decodeWord (rFormat 0x00 (regBits rs) (regBits rt) (regBits rd) z 0x21) = .addu rd rs rt ∧
    decodeWord (rFormat 0x00 (regBits rs) (regBits rt) (regBits rd) z 0x22) = .sub rd rs rt ∧
    decodeWord (rFormat 0x00 (regBits rs) (regBits rt) (regBits rd) z 0x23) = .subu rd rs rt ∧
    decodeWord (rFormat 0x00 (regBits rs) (regBits rt) (regBits rd) z 0x24) = .and rd rs rt ∧
    decodeWord (rFormat 0x00 (regBits rs) (regBits rt) (regBits rd) z 0x25) = .or rd rs rt ∧
    decodeWord (rFormat 0x00 (regBits rs) (regBits rt) (regBits rd) z 0x26) = .xor rd rs rt ∧
    decodeWord (rFormat 0x00 (regBits rs) (regBits rt) (regBits rd) z 0x27) = .nor rd rs rt ∧
    decodeWord (rFormat 0x00 (regBits rs) (regBits rt) (regBits rd) z 0x2A) = .slt rd rs rt ∧
    decodeWord (rFormat 0x00 (regBits rs) (regBits rt) (regBits rd) z 0x2B) = .sltu rd rs rt) ∧
  (∀ (rt rd : Reg) (x : BitVec 5) (y : BitVec 6),
    decodeWord (rFormat 0x10 0x00 (regBits rt) (regBits rd) x y) = .mfc0 rt rd ∧
    decodeWord (rFormat 0x10 0x02 (regBits rt) (regBits rd) x y) = .cfc0 rt rd ∧
    decodeWord (rFormat 0x10 0x04 (regBits rt) (regBits rd) x y) = .mtc0 rt rd ∧
    decodeWord (rFormat 0x10 0x06 (regBits rt) (regBits rd) x y) = .ctc0 rt rd ∧
    decodeWord (rFormat 0x12 0x00 (regBits rt) (regBits rd) x y) = .mfc2 rt rd ∧
    decodeWord (rFormat 0x12 0x02 (regBits rt) (regBits rd) x y) = .cfc2 rt rd ∧
    decodeWord (rFormat 0x12 0x04 (regBits rt) (regBits rd) x y) = .mtc2 rt rd ∧
    decodeWord (rFormat 0x12 0x06 (regBits rt) (regBits rd) x y) = .ctc2 rt rd) ∧
  (∀ x : BitVec 19,
    decodeWord ((0x10#6 : BitVec 6) ++ (1#1 : BitVec 1) ++ x ++ (0x01#6 : BitVec 6)) = .tlbr ∧
    decodeWord ((0x10#6 : BitVec 6) ++ (1#1 : BitVec 1) ++ x ++ (0x02#6 : BitVec 6)) = .tlbwi ∧
    decodeWord ((0x10#6 : BitVec 6) ++ (1#1 : BitVec 1) ++ x ++ (0x06#6 : BitVec 6)) = .tlbwr ∧
    decodeWord ((0x10#6 : BitVec 6) ++ (1#1 : BitVec 1) ++ x ++ (0x08#6 : BitVec 6)) = .tlbp ∧
    decodeWord ((0x10#6 : BitVec 6) ++ (1#1 : BitVec 1) ++ x ++ (0x10#6 : BitVec 6)) = .rfe) ∧
  (∀ (code code' : BitVec 20) (s : State),
    decodeWord (codeFormat code 0x0C) = .syscall code ∧ decodeWord (codeFormat code 0x0D) = .break_ code ∧
    exec (.syscall code) s = exec (.syscall code') s ∧ exec (.break_ code) s = exec (.break_ code') s)

/-- The fields of a GTE command word: any COP2 word whose bits 25:21 are no move's is the command its bits 5:0
name, with sf in bit 19, mx in 18:17, v in 16:15, cv in 14:13, lm in bit 10, whatever the other bits hold; a
number no row has is the unknown command (R434, R441, R442). -/
def Obligations.GteCommandWordFields : Prop :=
  ∀ (r : BitVec 5) (b20 : BitVec 1) (sf lm : Bool) (mx v cv x : BitVec 2) (y : BitVec 4) (cmd : BitVec 6),
    r ≠ 0x00#5 → r ≠ 0x02#5 → r ≠ 0x04#5 → r ≠ 0x06#5 →
    let w : Word := (0x12#6 : BitVec 6) ++ r ++ b20 ++ BitVec.ofBool sf ++ mx ++ v ++ cv ++ x ++
      BitVec.ofBool lm ++ y ++ cmd
    (cmd = 0x01#6 → decodeWord w = .gteRtps sf lm) ∧ (cmd = 0x06#6 → decodeWord w = .gteNclip sf lm) ∧
    (cmd = 0x0C#6 → decodeWord w = .gteOp sf lm) ∧ (cmd = 0x10#6 → decodeWord w = .gteDpcs sf lm) ∧
    (cmd = 0x11#6 → decodeWord w = .gteIntpl sf lm) ∧
    (cmd = 0x12#6 → decodeWord w = .gteMvmva sf
      (if mx = 0 then .rt else if mx = 1 then .llm else if mx = 2 then .lcm else .garbage)
      (if v = 0 then .v0 else if v = 1 then .v1 else if v = 2 then .v2 else .ir)
      (if cv = 0 then .tr else if cv = 1 then .bk else if cv = 2 then .fc else .zero) lm) ∧
    (cmd = 0x13#6 → decodeWord w = .gteNcds sf lm) ∧ (cmd = 0x14#6 → decodeWord w = .gteCdp sf lm) ∧
    (cmd = 0x16#6 → decodeWord w = .gteNcdt sf lm) ∧ (cmd = 0x1B#6 → decodeWord w = .gteNccs sf lm) ∧
    (cmd = 0x1C#6 → decodeWord w = .gteCc sf lm) ∧ (cmd = 0x1E#6 → decodeWord w = .gteNcs sf lm) ∧
    (cmd = 0x20#6 → decodeWord w = .gteNct sf lm) ∧ (cmd = 0x28#6 → decodeWord w = .gteSqr sf lm) ∧
    (cmd = 0x29#6 → decodeWord w = .gteDcpl sf lm) ∧ (cmd = 0x2A#6 → decodeWord w = .gteDpct sf lm) ∧
    (cmd = 0x2D#6 → decodeWord w = .gteAvsz3 sf lm) ∧ (cmd = 0x2E#6 → decodeWord w = .gteAvsz4 sf lm) ∧
    (cmd = 0x30#6 → decodeWord w = .gteRtpt sf lm) ∧ (cmd = 0x3D#6 → decodeWord w = .gteGpf sf lm) ∧
    (cmd = 0x3E#6 → decodeWord w = .gteGpl sf lm) ∧ (cmd = 0x3F#6 → decodeWord w = .gteNcct sf lm) ∧
    (cmd ∉ ([0x01, 0x06, 0x0C, 0x10, 0x11, 0x12, 0x13, 0x14, 0x16, 0x1B, 0x1C] ++
        [0x1E, 0x20, 0x28, 0x29, 0x2A, 0x2D, 0x2E, 0x30, 0x3D, 0x3E, 0x3F] : List (BitVec 6)) →
      decodeWord w = .gteUnknown cmd)

/-- Words the spec's examples write out decode to the instructions they stand for. -/
def Obligations.ExampleWordsDecode : Prop :=
  decodeWord 0x00000000 = .sll 0 0 0 ∧ decodeWord 0x0BF00040 = .j 0x3F00040 ∧
  decodeWord 0x0C004010 = .jal 0x0004010 ∧ decodeWord 0x03E00008 = .jr 31 ∧
  decodeWord 0x0100F809 = .jalr 31 8 ∧ decodeWord 0x11090004 = .beq 8 9 4 ∧
  decodeWord 0x1509FFFE = .bne 8 9 0xFFFE ∧ decodeWord 0x05110002 = .bgezal 8 2 ∧
  decodeWord 0x40086000 = .mfc0 8 12 ∧ decodeWord 0x40886000 = .mtc0 8 12 ∧
  decodeWord 0x42000010 = .rfe ∧ decodeWord 0x4808C000 = .mfc2 8 24 ∧
  decodeWord 0x48C80000 = .ctc2 8 0 ∧ decodeWord 0xC9000000 = .lwc2 0 0 8 ∧
  decodeWord 0xE90E0004 = .swc2 14 4 8 ∧ decodeWord 0x4A180001 = .gteRtps true false ∧
  decodeWord 0x4A280030 = .gteRtpt true false

/-! ## ALU -/

/-- The non-trapping three-register instructions: encoding, result, and nothing else changed. -/
def Obligations.RegisterAluResults : Prop :=
  ∀ (s : State) (rd rs rt : Reg) (sh : BitVec 5),
    let w (funct : BitVec 6) : Word := rFormat 0x00 (regBits rs) (regBits rt) (regBits rd) sh funct
    let a := s.getReg rs
    let b := s.getReg rt
    (decodeWord (w 0x21) = .addu rd rs rt ∧ WritesReg (.addu rd rs rt) s rd (a + b)) ∧
    (decodeWord (w 0x23) = .subu rd rs rt ∧ WritesReg (.subu rd rs rt) s rd (a - b)) ∧
    (decodeWord (w 0x24) = .and rd rs rt ∧ WritesReg (.and rd rs rt) s rd (a &&& b)) ∧
    (decodeWord (w 0x25) = .or rd rs rt ∧ WritesReg (.or rd rs rt) s rd (a ||| b)) ∧
    (decodeWord (w 0x26) = .xor rd rs rt ∧ WritesReg (.xor rd rs rt) s rd (a ^^^ b)) ∧
    (decodeWord (w 0x27) = .nor rd rs rt ∧ WritesReg (.nor rd rs rt) s rd (~~~(a ||| b))) ∧
    (decodeWord (w 0x2A) = .slt rd rs rt ∧
      WritesReg (.slt rd rs rt) s rd (if a.toInt < b.toInt then 1 else 0)) ∧
    (decodeWord (w 0x2B) = .sltu rd rs rt ∧
      WritesReg (.sltu rd rs rt) s rd (if a.toNat < b.toNat then 1 else 0))

/-- The six shifts: encoding, result with the count below 32, and nothing else changed. The result is stated on
integers: a product for the left shifts, a floor for the right ones. -/
def Obligations.ShiftResults : Prop :=
  ∀ (s : State) (rd rt rs : Reg) (sh x : BitVec 5),
    let w (a b : BitVec 5) (funct : BitVec 6) : Word := rFormat 0x00 a (regBits rt) (regBits rd) b funct
    let v := s.getReg rt
    let n := (s.getReg rs).toNat % 32
    (decodeWord (w x sh 0x00) = .sll rd rt sh ∧
      WritesReg (.sll rd rt sh) s rd (BitVec.ofNat 32 (v.toNat * 2 ^ sh.toNat))) ∧
    (decodeWord (w x sh 0x02) = .srl rd rt sh ∧
      WritesReg (.srl rd rt sh) s rd (BitVec.ofNat 32 (v.toNat / 2 ^ sh.toNat))) ∧
    (decodeWord (w x sh 0x03) = .sra rd rt sh ∧
      WritesReg (.sra rd rt sh) s rd (BitVec.ofInt 32 (v.toInt / 2 ^ sh.toNat))) ∧
    (decodeWord (w (regBits rs) x 0x04) = .sllv rd rt rs ∧
      WritesReg (.sllv rd rt rs) s rd (BitVec.ofNat 32 (v.toNat * 2 ^ n))) ∧
    (decodeWord (w (regBits rs) x 0x06) = .srlv rd rt rs ∧
      WritesReg (.srlv rd rt rs) s rd (BitVec.ofNat 32 (v.toNat / 2 ^ n))) ∧
    (decodeWord (w (regBits rs) x 0x07) = .srav rd rt rs ∧
      WritesReg (.srav rd rt rs) s rd (BitVec.ofInt 32 (v.toInt / 2 ^ n)))

/-- The non-trapping immediate instructions: encoding, result, and nothing else changed. -/
def Obligations.ImmediateAluResults : Prop :=
  ∀ (s : State) (rt rs : Reg) (x : BitVec 5) (imm : BitVec 16),
    let w (op : BitVec 6) : Word := iFormat op (regBits rs) (regBits rt) imm
    let a := s.getReg rs
    let sx : Word := BitVec.ofInt 32 imm.toInt
    let zx : Word := BitVec.ofNat 32 imm.toNat
    (decodeWord (w 0x09) = .addiu rt rs imm ∧ WritesReg (.addiu rt rs imm) s rt (a + sx)) ∧
    (decodeWord (w 0x0A) = .slti rt rs imm ∧
      WritesReg (.slti rt rs imm) s rt (if a.toInt < imm.toInt then 1 else 0)) ∧
    (decodeWord (w 0x0B) = .sltiu rt rs imm ∧
      WritesReg (.sltiu rt rs imm) s rt (if a.toNat < sx.toNat then 1 else 0)) ∧
    (decodeWord (w 0x0C) = .andi rt rs imm ∧ WritesReg (.andi rt rs imm) s rt (a &&& zx)) ∧
    (decodeWord (w 0x0D) = .ori rt rs imm ∧ WritesReg (.ori rt rs imm) s rt (a ||| zx)) ∧
    (decodeWord (w 0x0E) = .xori rt rs imm ∧ WritesReg (.xori rt rs imm) s rt (a ^^^ zx)) ∧
    (decodeWord (iFormat 0x0F x (regBits rt) imm) = .lui rt imm ∧
      WritesReg (.lui rt imm) s rt (imm ++ (0#16 : BitVec 16)))

/-- add, sub and addi: the sum or difference when the exact integer is a 32-bit signed value, the overflow
exception and no write when it is not, register 0 as destination included; and the bit test of R221 for the same
condition. -/
def Obligations.TrappingAddAndSub : Prop :=
  (∀ (s : State) (rd rs rt : Reg) (sh : BitVec 5) (imm : BitVec 16),
    let w (funct : BitVec 6) : Word := rFormat 0x00 (regBits rs) (regBits rt) (regBits rd) sh funct
    let fits (v : Int) : Prop := -2 ^ 31 ≤ v ∧ v ≤ 2 ^ 31 - 1
    let a := (s.getReg rs).toInt
    let b := (s.getReg rt).toInt
    (decodeWord (w 0x20) = .add rd rs rt ∧
      (fits (a + b) → WritesReg (.add rd rs rt) s rd (BitVec.ofInt 32 (a + b))) ∧
      (¬fits (a + b) → Traps (.add rd rs rt) s .ov none)) ∧
    (decodeWord (w 0x22) = .sub rd rs rt ∧
      (fits (a - b) → WritesReg (.sub rd rs rt) s rd (BitVec.ofInt 32 (a - b))) ∧
      (¬fits (a - b) → Traps (.sub rd rs rt) s .ov none)) ∧
    (decodeWord (iFormat 0x08 (regBits rs) (regBits rt) imm) = .addi rt rs imm ∧
      (fits (a + imm.toInt) → WritesReg (.addi rt rs imm) s rt (BitVec.ofInt 32 (a + imm.toInt))) ∧
      (¬fits (a + imm.toInt) → Traps (.addi rt rs imm) s .ov none))) ∧
  (∀ a b : Word,
    (¬(-2 ^ 31 ≤ a.toInt + b.toInt ∧ a.toInt + b.toInt ≤ 2 ^ 31 - 1) ↔
      ((a ^^^ (a + b)) &&& (b ^^^ (a + b))).getLsbD 31 = true) ∧
    (¬(-2 ^ 31 ≤ a.toInt - b.toInt ∧ a.toInt - b.toInt ≤ 2 ^ 31 - 1) ↔
      ((a ^^^ b) &&& (a ^^^ (a - b))).getLsbD 31 = true))

/-! ## Multiply and divide -/

/-- mult and multu: HI and LO together are the exact signed or unsigned product, and nothing else changes. -/
def Obligations.MultiplyResults : Prop :=
  ∀ (s : State) (rs rt : Reg) (x z : BitVec 5),
    (decodeWord (rFormat 0x00 (regBits rs) (regBits rt) x z 0x18) = .mult rs rt ∧
      ∃ t, exec (.mult rs rt) s = .next t ∧
        (t.hi ++ t.lo : BitVec 64).toInt = (s.getReg rs).toInt * (s.getReg rt).toInt ∧
        Frame { hi := true, lo := true } s t ∧ memoryKept s t) ∧
    (decodeWord (rFormat 0x00 (regBits rs) (regBits rt) x z 0x19) = .multu rs rt ∧
      ∃ t, exec (.multu rs rt) s = .next t ∧
        (t.hi ++ t.lo : BitVec 64).toNat = (s.getReg rs).toNat * (s.getReg rt).toNat ∧
        Frame { hi := true, lo := true } s t ∧ memoryKept s t)

/-- div and divu: the two special cases, the truncated quotient and its remainder, the floor and the modulus; no
exception, and nothing but HI and LO changes. -/
def Obligations.DivideResults : Prop :=
  ∀ (s : State) (rs rt : Reg) (x z : BitVec 5),
    let n := s.getReg rs
    let d := s.getReg rt
    (decodeWord (rFormat 0x00 (regBits rs) (regBits rt) x z 0x1A) = .div rs rt ∧
      ∃ t, exec (.div rs rt) s = .next t ∧
        (d = 0 → t.hi = n ∧ t.lo = if 0 ≤ n.toInt then 0xFFFFFFFF else 1) ∧
        (n = 0x80000000 → d = 0xFFFFFFFF → t.lo = 0x80000000 ∧ t.hi = 0) ∧
        (d ≠ 0 → ¬(n = 0x80000000 ∧ d = 0xFFFFFFFF) →
          t.lo.toInt = n.toInt.tdiv d.toInt ∧ t.hi.toInt = n.toInt - n.toInt.tdiv d.toInt * d.toInt) ∧
        Frame { hi := true, lo := true } s t ∧ memoryKept s t) ∧
    (decodeWord (rFormat 0x00 (regBits rs) (regBits rt) x z 0x1B) = .divu rs rt ∧
      ∃ t, exec (.divu rs rt) s = .next t ∧
        (d = 0 → t.hi = n ∧ t.lo = 0xFFFFFFFF) ∧
        (d ≠ 0 → t.lo.toNat = n.toNat / d.toNat ∧ t.hi.toNat = n.toNat % d.toNat) ∧
        Frame { hi := true, lo := true } s t ∧ memoryKept s t)

/-- The laws of R289: what the quotient, the remainder and the product satisfy, read back from HI and LO. -/
def Obligations.MultiplyDivideLaws : Prop :=
  ∀ (s : State) (rs rt : Reg),
    let n := s.getReg rs
    let d := s.getReg rt
    (∃ t, exec (.div rs rt) s = .next t ∧
      (d ≠ 0 → ¬(n = 0x80000000 ∧ d = 0xFFFFFFFF) →
        n.toInt = t.lo.toInt * d.toInt + t.hi.toInt ∧ |t.hi.toInt| < |d.toInt| ∧
        (t.hi = 0 ∨ (t.hi.toInt < 0 ↔ n.toInt < 0))) ∧
      (n = 0x80000000 → d = 0xFFFFFFFF → n = t.lo * d + t.hi)) ∧
    (∃ t, exec (.divu rs rt) s = .next t ∧
      (d ≠ 0 → n.toNat = t.lo.toNat * d.toNat + t.hi.toNat ∧ t.hi.toNat < d.toNat)) ∧
    (∃ t, exec (.mult rs rt) s = .next t ∧ (t.hi ++ t.lo : BitVec 64).toInt = n.toInt * d.toInt) ∧
    (∃ t, exec (.multu rs rt) s = .next t ∧ (t.hi ++ t.lo : BitVec 64).toNat = n.toNat * d.toNat)

/-- The four moves to and from HI and LO. -/
def Obligations.HiLoMoves : Prop :=
  ∀ (s : State) (rd rs : Reg) (x y z : BitVec 5),
    (decodeWord (rFormat 0x00 x y (regBits rd) z 0x10) = .mfhi rd ∧ WritesReg (.mfhi rd) s rd s.hi) ∧
    (decodeWord (rFormat 0x00 (regBits rs) x y z 0x11) = .mthi rs ∧
      ∃ t, exec (.mthi rs) s = .next t ∧ t.hi = s.getReg rs ∧ Frame { hi := true } s t ∧ memoryKept s t) ∧
    (decodeWord (rFormat 0x00 x y (regBits rd) z 0x12) = .mflo rd ∧ WritesReg (.mflo rd) s rd s.lo) ∧
    (decodeWord (rFormat 0x00 (regBits rs) x y z 0x13) = .mtlo rs ∧
      ∃ t, exec (.mtlo rs) s = .next t ∧ t.lo = s.getReg rs ∧ Frame { lo := true } s t ∧ memoryKept s t)

/-! ## Control transfer -/

/-- The four jumps: target, link, and nothing else changed; pc is the delay slot's address while they run. -/
def Obligations.JumpResults : Prop :=
  ∀ (s : State) (target : BitVec 26) (rd rs : Reg) (x y z : BitVec 5),
    let there : Word := s.pc.extractLsb' 28 4 ++ target ++ (0#2 : BitVec 2)
    (decodeWord (jFormat 0x02 target) = .j target ∧ JumpsTo (.j target) s there none) ∧
    (decodeWord (jFormat 0x03 target) = .jal target ∧ JumpsTo (.jal target) s there (some 31)) ∧
    (decodeWord (rFormat 0x00 (regBits rs) x y z 0x08) = .jr rs ∧ JumpsTo (.jr rs) s (s.getReg rs) none) ∧
    (decodeWord (rFormat 0x00 (regBits rs) x (regBits rd) z 0x09) = .jalr rd rs ∧
      JumpsTo (.jalr rd rs) s (s.getReg rs) (some rd))

/-- The six conditional branches that do not link. -/
def Obligations.BranchResults : Prop :=
  ∀ (s : State) (rs rt : Reg) (x : BitVec 5) (imm : BitVec 16),
    let w (op : BitVec 6) (b : BitVec 5) : Word := iFormat op (regBits rs) b imm
    let a := s.getReg rs
    (decodeWord (w 0x04 (regBits rt)) = .beq rs rt imm ∧
      BranchesIf (.beq rs rt imm) s (a = s.getReg rt) imm none) ∧
    (decodeWord (w 0x05 (regBits rt)) = .bne rs rt imm ∧
      BranchesIf (.bne rs rt imm) s (a ≠ s.getReg rt) imm none) ∧
    (decodeWord (w 0x06 x) = .blez rs imm ∧ BranchesIf (.blez rs imm) s (a.toInt ≤ 0) imm none) ∧
    (decodeWord (w 0x07 x) = .bgtz rs imm ∧ BranchesIf (.bgtz rs imm) s (0 < a.toInt) imm none) ∧
    (decodeWord (w 0x01 0x00) = .bltz rs imm ∧ BranchesIf (.bltz rs imm) s (a.toInt < 0) imm none) ∧
    (decodeWord (w 0x01 0x01) = .bgez rs imm ∧ BranchesIf (.bgez rs imm) s (0 ≤ a.toInt) imm none)

/-- bltzal and bgezal: the condition on the old register, the link written taken or not. -/
def Obligations.LinkBranchResults : Prop :=
  ∀ (s : State) (rs : Reg) (imm : BitVec 16),
    (decodeWord (iFormat 0x01 (regBits rs) 0x10 imm) = .bltzal rs imm ∧
      BranchesIf (.bltzal rs imm) s ((s.getReg rs).toInt < 0) imm (some 31)) ∧
    (decodeWord (iFormat 0x01 (regBits rs) 0x11 imm) = .bgezal rs imm ∧
      BranchesIf (.bgezal rs imm) s (0 ≤ (s.getReg rs).toInt) imm (some 31))

/-! ## Memory -/

/-- SEG_MASK for each value of bits 31:29, on whole segments: kuseg and kseg2 unchanged, kseg0 and kseg1 onto
0x00000000 - 0x1FFFFFFF; translating a translated address changes nothing. Every range of the default map, with its
bounds, the two CPU-local windows, and nothing anywhere else; the default map keeps them apart. The three vectors
of the spec are in ROM, RAM and ROM. -/
def Obligations.TranslationAndDefaultMap : Prop :=
  (∀ (cfg : Config) (a : Word), cfg.segMask = defaultSegMask →
    translate cfg (translate cfg a) = translate cfg a ∧
    (a.toNat < 0x80000000 ∨ 0xC0000000 ≤ a.toNat → translate cfg a = a) ∧
    (0x80000000 ≤ a.toNat → a.toNat < 0xA0000000 → (translate cfg a).toNat = a.toNat - 0x80000000) ∧
    (0xA0000000 ≤ a.toNat → a.toNat < 0xC0000000 → (translate cfg a).toNat = a.toNat - 0xA0000000)) ∧
  (∀ p : Word,
    let holds (lo hi : Nat) : Prop := lo ≤ p.toNat ∧ p.toNat ≤ hi
    let range (lo hi : Nat) (d : Device) (place : Place) : Prop := holds lo hi →
      rangeAt defaultConfig p = some ⟨lo, hi + 1 - lo, d⟩ ∧ placeOf defaultConfig p = place
    let window (lo hi : Nat) (d : Peripheral) : Prop := range lo hi (.peripheral d) (.device d)
    range 0x00000000 0x001FFFFF .ram .ram ∧ range 0x1FC00000 0x1FC7FFFF .rom .rom ∧
    window 0x1F000000 0x1F7FFFFF .expansion1 ∧ window 0x1F801000 0x1F801023 .memoryControl1 ∧
    window 0x1F801040 0x1F80105F .serialPorts ∧ window 0x1F801060 0x1F801063 .memoryControl2 ∧
    window 0x1F801070 0x1F801077 .interruptController ∧ window 0x1F801080 0x1F8010FF .dma ∧
    window 0x1F801100 0x1F80112F .timers ∧ window 0x1F801800 0x1F801803 .cdrom ∧
    window 0x1F801810 0x1F801817 .gpu ∧ window 0x1F801820 0x1F801827 .mdec ∧
    window 0x1F801C00 0x1F801FFF .spu ∧ window 0x1F802000 0x1F803FFF .expansion2 ∧
    window 0x1FA00000 0x1FBFFFFF .expansion3 ∧
    (inScratch defaultConfig p = true ↔ holds 0x1F800000 0x1F8003FF) ∧
    (inCacheCtrl defaultConfig p = true ↔ holds 0xFFFE0130 0xFFFE0133) ∧
    (placeOf defaultConfig p = .cpuLocal ↔ holds 0x1F800000 0x1F8003FF ∨ holds 0xFFFE0130 0xFFFE0133) ∧
    (rangeAt defaultConfig p = none ↔
      ∀ b ∈ ([(0x00000000, 0x001FFFFF), (0x1FC00000, 0x1FC7FFFF), (0x1F000000, 0x1F7FFFFF), (0x1F801000, 0x1F801023),
        (0x1F801040, 0x1F80105F), (0x1F801060, 0x1F801063), (0x1F801070, 0x1F801077), (0x1F801080, 0x1F8010FF)] ++
        [(0x1F801100, 0x1F80112F), (0x1F801800, 0x1F801803), (0x1F801810, 0x1F801817), (0x1F801820, 0x1F801827),
        (0x1F801C00, 0x1F801FFF), (0x1F802000, 0x1F803FFF), (0x1FA00000, 0x1FBFFFFF)] : List (Nat × Nat)),
        ¬holds b.1 b.2)) ∧
  defaultConfig.mapOk ∧ defaultConfig.segMask = defaultSegMask ∧
  translate defaultConfig 0xBFC00000 = 0x1FC00000 ∧ placeOf defaultConfig 0x1FC00000 = .rom ∧
  translate defaultConfig 0x80000080 = 0x00000080 ∧ placeOf defaultConfig 0x00000080 = .ram ∧
  translate defaultConfig 0xBFC00180 = 0x1FC00180 ∧ placeOf defaultConfig 0x1FC00180 = .rom

/-- The aligned loads: the value, extended, in rt, from every place; the address error and no access where the
address is misaligned. -/
def Obligations.AlignedLoads : Prop :=
  ∀ (s : State) (rt rs : Reg) (imm : BitVec 16), s.cfg.mapOk →
    let w (op : BitVec 6) : Word := iFormat op (regBits rs) (regBits rt) imm
    let ea := s.getReg rs + imm.signExtend 32
    (decodeWord (w 0x20) = .lb rt imm rs ∧
      Loads (.lb rt imm rs) .byte ea rt (fun v => (v.setWidth 8).signExtend 32) s) ∧
    (decodeWord (w 0x24) = .lbu rt imm rs ∧
      Loads (.lbu rt imm rs) .byte ea rt (fun v => (v.setWidth 8).setWidth 32) s) ∧
    (decodeWord (w 0x21) = .lh rt imm rs ∧
      (ea.toNat % 2 = 0 → Loads (.lh rt imm rs) .half ea rt (fun v => (v.setWidth 16).signExtend 32) s) ∧
      (ea.toNat % 2 ≠ 0 → Traps (.lh rt imm rs) s .adEL (some ea))) ∧
    (decodeWord (w 0x25) = .lhu rt imm rs ∧
      (ea.toNat % 2 = 0 → Loads (.lhu rt imm rs) .half ea rt (fun v => (v.setWidth 16).setWidth 32) s) ∧
      (ea.toNat % 2 ≠ 0 → Traps (.lhu rt imm rs) s .adEL (some ea))) ∧
    (decodeWord (w 0x23) = .lw rt imm rs ∧
      (ea.toNat % 4 = 0 → Loads (.lw rt imm rs) .word ea rt id s) ∧
      (ea.toNat % 4 ≠ 0 → Traps (.lw rt imm rs) s .adEL (some ea)))

/-- The aligned stores, to every place; the address error and no access where the address is misaligned. -/
def Obligations.AlignedStores : Prop :=
  ∀ (s : State) (rt rs : Reg) (imm : BitVec 16), s.cfg.mapOk → s.memoriesWf →
    let w (op : BitVec 6) : Word := iFormat op (regBits rs) (regBits rt) imm
    let ea := s.getReg rs + imm.signExtend 32
    (decodeWord (w 0x28) = .sb rt imm rs ∧ Stores (.sb rt imm rs) .byte ea (s.getReg rt) s) ∧
    (decodeWord (w 0x29) = .sh rt imm rs ∧
      (ea.toNat % 2 = 0 → Stores (.sh rt imm rs) .half ea (s.getReg rt) s) ∧
      (ea.toNat % 2 ≠ 0 → Traps (.sh rt imm rs) s .adES (some ea))) ∧
    (decodeWord (w 0x2B) = .sw rt imm rs ∧
      (ea.toNat % 4 = 0 → Stores (.sw rt imm rs) .word ea (s.getReg rt) s) ∧
      (ea.toNat % 4 ≠ 0 → Traps (.sw rt imm rs) s .adES (some ea)))

/-- lwc2 and swc2: a word between memory and a GTE data register, through the move functions of the bank; the
address error where the address is misaligned. -/
def Obligations.GteLoadAndStore : Prop :=
  ∀ (s : State) (rt rs : Reg) (imm : BitVec 16), s.cfg.mapOk → s.memoriesWf →
    let ea := s.getReg rs + imm.signExtend 32
    decodeWord (iFormat 0x32 (regBits rs) (regBits rt) imm) = .lwc2 rt imm rs ∧
    (ea.toNat % 4 = 0 → ∃ v t, exec (.lwc2 rt imm rs) s = .next t ∧ ReadGives .word ea s v t ∧
      t.gte = s.gte.writeD s.cfg.gteMoveMode rt v ∧
      Frame { gteD := [9, 10, 11, 12, 13, 14, rt], diag := true, devices := true } s t ∧ memoryKept s t) ∧
    (ea.toNat % 4 ≠ 0 → Traps (.lwc2 rt imm rs) s .adEL (some ea)) ∧
    decodeWord (iFormat 0x3A (regBits rs) (regBits rt) imm) = .swc2 rt imm rs ∧
    (ea.toNat % 4 = 0 → Stores (.swc2 rt imm rs) .word ea (s.gte.readD s.cfg.gteMoveMode rt) s) ∧
    (ea.toNat % 4 ≠ 0 → Traps (.swc2 rt imm rs) s .adES (some ea))

/-- lwl and lwr at every address, in both modes: the aligned word whole, or merged byte by byte with rt as the
table of R351 says; never an exception. -/
def Obligations.UnalignedLoads : Prop :=
  ∀ (s : State) (rt rs : Reg) (imm : BitVec 16), s.cfg.mapOk →
    let w (op : BitVec 6) : Word := iFormat op (regBits rs) (regBits rt) imm
    let ea := s.getReg rs + imm.signExtend 32
    let a := ea &&& 0xFFFFFFFC
    let k := ea.toNat % 4
    let r := s.getReg rt
    decodeWord (w 0x22) = .lwl rt imm rs ∧ decodeWord (w 0x26) = .lwr rt imm rs ∧
    (s.cfg.unalignedMode = .approx →
      Loads (.lwl rt imm rs) .word a rt id s ∧ Loads (.lwr rt imm rs) .word a rt id s) ∧
    (s.cfg.unalignedMode = .exact →
      Loads (.lwl rt imm rs) .word a rt
        (fun m => wordOf fun j => if 3 ≤ j + k then byteOf m (j + k - 3) else byteOf r j) s ∧
      Loads (.lwr rt imm rs) .word a rt
        (fun m => wordOf fun j => if j + k ≤ 3 then byteOf m (j + k) else byteOf r j) s)

/-- swl and swr at every address: in approx mode the whole of rt to the aligned word; in exact mode, where bytes
are stored, the bytes of the table of R352 merged into the word read; a peripheral window is refused in exact
mode. That it is refused whatever Status.IsC is, the model's reading of R119 and R352, is log 16 (DEDUCED). -/
def Obligations.UnalignedStores : Prop :=
  ∀ (s : State) (rt rs : Reg) (imm : BitVec 16), s.cfg.mapOk → s.memoriesWf →
    let w (op : BitVec 6) : Word := iFormat op (regBits rs) (regBits rt) imm
    let ea := s.getReg rs + imm.signExtend 32
    let a := ea &&& 0xFFFFFFFC
    let k := ea.toNat % 4
    let r := s.getReg rt
    let p := translate s.cfg a
    decodeWord (w 0x2A) = .swl rt imm rs ∧ decodeWord (w 0x2E) = .swr rt imm rs ∧
    (s.cfg.unalignedMode = .approx →
      Stores (.swl rt imm rs) .word a r s ∧ Stores (.swr rt imm rs) .word a r s) ∧
    (s.cfg.unalignedMode = .exact → (placeOf s.cfg p).isStorage = true →
      ∃ m : Word, (∀ j, j < 4 → s.peek (p + BitVec.ofNat 32 j) = some (byteOf m j)) ∧
        Stores (.swl rt imm rs) .word a
          (wordOf fun j => if j ≤ k then byteOf r (3 - k + j) else byteOf m j) s ∧
        Stores (.swr rt imm rs) .word a (wordOf fun j => if k ≤ j then byteOf r (j - k) else byteOf m j) s) ∧
    (s.cfg.unalignedMode = .exact → ∀ d, placeOf s.cfg p = .device d →
      exec (.swl rt imm rs) s = .refused .partialStoreToDevice ∧
      exec (.swr rt imm rs) s = .refused .partialStoreToDevice)

/-- Where nothing answers, swl and swr in exact mode record the read of the aligned word and then the dropped write
of the merged word (log 16). -/
def Obligations.UnalignedStoresNowhere : Prop :=
  ∀ (s : State) (rt rs : Reg) (imm : BitVec 16), s.cfg.mapOk → s.cfg.unalignedMode = .exact →
    let ea := s.getReg rs + imm.signExtend 32
    let a := ea &&& 0xFFFFFFFC
    let k := ea.toNat % 4
    let r := s.getReg rt
    let p := translate s.cfg a
    let drop (v : Word) : Diagnostic :=
      if s.isolated then .isolatedStore a .word v else .unhandledWrite p .word v
    placeOf s.cfg p = .nowhere →
    (∃ t, exec (.swl rt imm rs) s = .next t ∧
      t.diag = s.diag ++ [.unhandledRead p .word,
        drop (wordOf fun j => if j ≤ k then byteOf r (3 - k + j) else 0)] ∧
      Frame { diag := true } s t ∧ memoryKept s t) ∧
    (∃ t, exec (.swr rt imm rs) s = .next t ∧
      t.diag = s.diag ++ [.unhandledRead p .word, drop (wordOf fun j => if k ≤ j then byteOf r (j - k) else 0)] ∧
      Frame { diag := true } s t ∧ memoryKept s t)

/-- The two modes agree where the whole aligned word is moved: lwl and swl at ea[1:0] = 3, lwr and swr at 0, the
stores where bytes are stored. -/
def Obligations.UnalignedModesAgree : Prop :=
  ∀ (s : State) (rt rs : Reg) (imm : BitVec 16), s.cfg.mapOk →
    let inMode (m : UnalignedMode) (t : State) : State := { t with cfg := { t.cfg with unalignedMode := m } }
    let agree (i : Instr) : Prop :=
      exec i (inMode .exact s) = mapNext (inMode .exact) (exec i (inMode .approx s))
    let ea := s.getReg rs + imm.signExtend 32
    let p := translate s.cfg (ea &&& 0xFFFFFFFC)
    (ea.toNat % 4 = 3 → agree (.lwl rt imm rs) ∧
      ((placeOf s.cfg p).isStorage = true → agree (.swl rt imm rs))) ∧
    (ea.toNat % 4 = 0 → agree (.lwr rt imm rs) ∧
      ((placeOf s.cfg p).isStorage = true → agree (.swr rt imm rs)))

/-- An access whose last byte is outside what its first byte selects is refused (R110, R106, R108; that the refusal
at the end of the scratchpad and of the cache-control register has the name of R110 is log 17, DEDUCED): by every
load, by every store that is not dropped, stores to a CPU-local window under IsC among them, and by a fetch. Exact
swl and swr are refused by the read of the aligned word, IsC or not, and in a peripheral window by the refusal that
comes first (log 16, DEDUCED). A byte always fits, and under a map whose bases and sizes are multiples of 4 so does
every aligned access. -/
def Obligations.AccessesNeverSpanRanges : Prop :=
  (∀ (s : State) (ea v : Word) (n : Width), dataFits s.cfg (translate s.cfg ea) n = false →
    memRead ea n s = .error .accessSpansRange ∧
    ((s.isolated = false ∨ placeOf s.cfg (translate s.cfg ea) = .cpuLocal) →
      memWrite ea n v s = .error .accessSpansRange)) ∧
  (∀ (s : State) (a : Word), busFits s.cfg (translate s.cfg a) .word = false →
    fetch a s = .error .accessSpansRange) ∧
  (∀ (s : State) (rt rs : Reg) (imm : BitVec 16),
    let ea := s.getReg rs + imm.signExtend 32
    let p := translate s.cfg ea
    let a := translate s.cfg (ea &&& 0xFFFFFFFC)
    let fails (i : Instr) : Prop := exec i s = .refused .accessSpansRange
    (ea.toNat % 2 = 0 → dataFits s.cfg p .half = false → fails (.lh rt imm rs) ∧ fails (.lhu rt imm rs)) ∧
    (ea.toNat % 4 = 0 → dataFits s.cfg p .word = false → fails (.lw rt imm rs) ∧ fails (.lwc2 rt imm rs)) ∧
    (dataFits s.cfg a .word = false → fails (.lwl rt imm rs) ∧ fails (.lwr rt imm rs)) ∧
    (s.isolated = false ∨ placeOf s.cfg p = .cpuLocal →
      (ea.toNat % 2 = 0 → dataFits s.cfg p .half = false → fails (.sh rt imm rs)) ∧
      (ea.toNat % 4 = 0 → dataFits s.cfg p .word = false → fails (.sw rt imm rs) ∧ fails (.swc2 rt imm rs))) ∧
    (s.cfg.unalignedMode = .approx → (s.isolated = false ∨ placeOf s.cfg a = .cpuLocal) →
      dataFits s.cfg a .word = false → fails (.swl rt imm rs) ∧ fails (.swr rt imm rs)) ∧
    (s.cfg.unalignedMode = .exact → dataFits s.cfg a .word = false →
      ((∀ d, placeOf s.cfg a ≠ .device d) → fails (.swl rt imm rs) ∧ fails (.swr rt imm rs)) ∧
      (∀ d, placeOf s.cfg a = .device d → exec (.swl rt imm rs) s = .refused .partialStoreToDevice ∧
        exec (.swr rt imm rs) s = .refused .partialStoreToDevice))) ∧
  (∀ (cfg : Config) (p : Word), dataFits cfg p .byte = true) ∧
  (∀ (cfg : Config) (p : Word) (n : Width), cfg.mapOk → p.toNat % n.bytes = 0 →
    dataFits cfg p n = true ∧ busFits cfg p n = true)

/-- A word stored by sw into a place that holds it is what lw reads there in the next instruction, and, from RAM,
what the next fetch there reads; reading RAM and writing the value back changes no state. -/
def Obligations.LoadAfterStore : Prop :=
  ∀ (s t : State) (rt rq rs : Reg) (imm : BitVec 16), s.cfg.mapOk → s.memoriesWf →
    let ea := s.getReg rs + imm.signExtend 32
    let place := placeOf s.cfg (translate s.cfg ea)
    ea.toNat % 4 = 0 → exec (.sw rt imm rs) s = .next t →
    (place = .cpuLocal ∨ (place = .ram ∧ s.isolated = false) →
      WritesReg (.lw rq imm rs) t rq (s.getReg rt)) ∧
    (place = .ram → s.isolated = false → fetch ea t = .ok (s.getReg rt, t)) ∧
    (place = .ram → s.isolated = false → ∃ v, memRead ea .word s = .ok (v, s) ∧ memWrite ea .word v s = .ok s)

/-! ## Exceptions and COP0 -/

/-- Exception entry, for every code and every prior state: EPC, Cause.BD and ExcCode, the Status push, the vector,
BadVAddr, the branch state, and nothing else. -/
def Obligations.EntryLaws : Prop :=
  ∀ (s : State) (code : ExcCode) (badVAddr : Option Word),
    Entered code badVAddr s (s.enter code badVAddr)

/-- syscall and break take their exceptions, from every state, with every code. -/
def Obligations.SyscallAndBreak : Prop :=
  ∀ (s : State) (code : BitVec 20),
    (decodeWord (codeFormat code 0x0C) = .syscall code ∧ Traps (.syscall code) s .sys none) ∧
    (decodeWord (codeFormat code 0x0D) = .break_ code ∧ Traps (.break_ code) s .bp none)

/-- rfe pops the Status stack: bits 3:0 from bits 5:2, the rest kept; nothing else changes. Two in a row give bits
1:0 = old bits 5:4. After an exception and an rfe, bits 3:0 are what they were before the exception, and bits 5:4
the old bits 3:2. -/
def Obligations.ReturnFromException : Prop :=
  ∀ s : State,
    decodeWord 0x42000010 = .rfe ∧
    (∃ t, exec .rfe s = .next t ∧
      (t.getCop0 12).extractLsb' 0 4 = (s.getCop0 12).extractLsb' 2 4 ∧
      (t.getCop0 12).extractLsb' 4 28 = (s.getCop0 12).extractLsb' 4 28 ∧
      Frame { cop0 := [12] } s t ∧ memoryKept s t ∧
      ∃ u, exec .rfe t = .next u ∧ (u.getCop0 12).extractLsb' 0 2 = (s.getCop0 12).extractLsb' 4 2) ∧
    (∀ (code : ExcCode) (badVAddr : Option Word), ∃ t, exec .rfe (s.enter code badVAddr) = .next t ∧
      (t.getCop0 12).extractLsb' 0 4 = (s.getCop0 12).extractLsb' 0 4 ∧
      (t.getCop0 12).extractLsb' 4 2 = (s.getCop0 12).extractLsb' 2 2 ∧
      (t.getCop0 12).extractLsb' 6 26 = (s.getCop0 12).extractLsb' 6 26)

/-- mfc0 and mtc0, for every register and in every mode: all 32 bits, no check. -/
def Obligations.Cop0Moves : Prop :=
  ∀ (s : State) (rt rd : Reg) (x : BitVec 5) (y : BitVec 6),
    (decodeWord (rFormat 0x10 0x00 (regBits rt) (regBits rd) x y) = .mfc0 rt rd ∧
      WritesReg (.mfc0 rt rd) s rt (s.getCop0 rd)) ∧
    (decodeWord (rFormat 0x10 0x04 (regBits rt) (regBits rd) x y) = .mtc0 rt rd ∧
      ∃ t, exec (.mtc0 rt rd) s = .next t ∧ t.getCop0 rd = s.getReg rt ∧ Frame { cop0 := [rd] } s t ∧
        memoryKept s t)

/-- cfc0, ctc0, the TLB operations and every other COP0 word: one diagnostic with the word and its address, and no
other effect; the words that are unsupported are those R392 names. -/
def Obligations.Cop0OperationsLogged : Prop :=
  (∀ (s : State) (rt rd : Reg) (cofun : BitVec 26),
    let d := Diagnostic.cop0Unsupported s.word s.curPC
    OnlyRecords (.cfc0 rt rd) s d ∧ OnlyRecords (.ctc0 rt rd) s d ∧ OnlyRecords .tlbr s d ∧
    OnlyRecords .tlbwi s d ∧ OnlyRecords .tlbwr s d ∧ OnlyRecords .tlbp s d ∧
    OnlyRecords (.cop0Unsupported cofun) s d) ∧
  (∀ cofun : BitVec 26,
    let rs := cofun.extractLsb' 21 5
    let funct := cofun.extractLsb' 0 6
    (decodeWord (jFormat 0x10 cofun) = .cop0Unsupported cofun ↔
      (cofun.getLsbD 25 = false ∧ rs ∉ ([0x00, 0x02, 0x04, 0x06] : List (BitVec 5))) ∨
      (cofun.getLsbD 25 = true ∧ funct ∉ ([0x01, 0x02, 0x06, 0x08, 0x10] : List (BitVec 6)))))

/-- The words the block does not implement, COP1 and COP3, the loads and stores of absent coprocessors and the
undefined encodings: one diagnostic with the word and its address, and no other effect. -/
def Obligations.UnimplementedWordsLogged : Prop :=
  (∀ (s : State) (i : Instr), i.isUnimplemented = true → OnlyRecords i s (.unimplemented s.word s.curPC)) ∧
  (∀ w : Word, (decodeWord w).isUnimplemented = true ↔
    opField w ∈ ([0x11, 0x13, 0x14, 0x15, 0x16, 0x17, 0x18, 0x19, 0x1A, 0x1B, 0x1C, 0x1D, 0x1E, 0x1F] ++
      [0x27, 0x2C, 0x2D, 0x2F, 0x30, 0x31, 0x33, 0x34, 0x35, 0x36, 0x37, 0x38, 0x39, 0x3B, 0x3C, 0x3D] ++
      [0x3E, 0x3F] : List (BitVec 6)) ∨
    (opField w = 0x00 ∧ functField w ∈ ([0x01, 0x05, 0x0A, 0x0B, 0x0E, 0x0F, 0x14, 0x15, 0x16, 0x17] ++
      [0x1C, 0x1D, 0x1E, 0x1F, 0x28, 0x29, 0x2C, 0x2D, 0x2E, 0x2F, 0x30, 0x31, 0x32, 0x33, 0x34, 0x35] ++
      [0x36, 0x37, 0x38, 0x39, 0x3A, 0x3B, 0x3C, 0x3D, 0x3E, 0x3F] : List (BitVec 6))) ∨
    (opField w = 0x01 ∧ rtField w ∉ ([0x00, 0x01, 0x10, 0x11] : List (BitVec 5))))

/-! ## Whole-machine rules -/

/-- Which instructions write a general register, and which HI and LO: no instruction writes any other. -/
def Obligations.RegisterWriters : Prop :=
  ∀ (i : Instr) (s t : State), exec i s = .next t →
    (∀ r, t.getReg r ≠ s.getReg r → i.gprDest = some r) ∧ t.getReg 0 = 0 ∧ t.regs[(0 : Reg)] = s.regs[(0 : Reg)] ∧
    (t.hi ≠ s.hi → writesHiLo i = true) ∧ (t.lo ≠ s.lo → writesHiLo i = true)

/-- The only instructions that enter the exception sequence or write COP0: an instruction that R561 does not name
leaves pc and all of COP0 but what mtc0 and rfe write, and the writers of Status write the bits R53 says. -/
def Obligations.ExceptionSourcesAndCop0Writers : Prop :=
  ∀ (i : Instr) (s t : State), exec i s = .next t →
    (i.mayRaise = false →
      t.pc = s.pc ∧
      ∀ n, t.getCop0 n ≠ s.getCop0 n → (∃ rt, i = .mtc0 rt n) ∨ (i = .rfe ∧ n = 12)) ∧
    (i.mayRaise = true → t.pc = s.pc ∨ ∃ code badVAddr, Entered code badVAddr s t) ∧
    ((∀ rt, i ≠ .mtc0 rt 12) →
      (t.getCop0 12).extractLsb' 6 26 = (s.getCop0 12).extractLsb' 6 26 ∧
      ((t.getCop0 12).extractLsb' 4 2 ≠ (s.getCop0 12).extractLsb' 4 2 → i.mayRaise = true))

/-- Only mtc2, ctc2, lwc2 and the commands change the GTE bank; only the six stores change a byte of memory, and
of those only the bytes of the word at the address they compute. -/
def Obligations.BankAndMemoryWriters : Prop :=
  ∀ (i : Instr) (s t : State), s.cfg.mapOk → s.memoriesWf → exec i s = .next t →
    (t.gte ≠ s.gte → i.writesGte = true) ∧
    (i.isStore = false → memoryKept s t ∧ t.ram = s.ram ∧ t.scratch = s.scratch ∧ t.cacheCtrl = s.cacheCtrl) ∧
    (∀ (rt rs : Reg) (imm : BitVec 16),
      i ∈ ([.sb rt imm rs, .sh rt imm rs, .sw rt imm rs, .swl rt imm rs, .swr rt imm rs, .swc2 rt imm rs] :
        List Instr) →
      memoryKeptOutside (translate s.cfg ((s.getReg rs + imm.signExtend 32) &&& 0xFFFFFFFC)) .word s t)

/-- The mode bits change nothing: with KUc, KUp and KUo of Status cleared beforehand every instruction but the read
of Status itself does the same, up to those bits. -/
def Obligations.NoInstructionDependsOnMode : Prop :=
  ∀ (i : Instr) (s : State), (∀ rt, i ≠ .mfc0 rt 12) →
    mapNext State.forgetMode (exec i s.forgetMode) = mapNext State.forgetMode (exec i s)

/-! ## The geometry coprocessor -/

/-- mfc2 and cfc2 in both modes: what each register reads as. -/
def Obligations.GteMoveReads : Prop :=
  ∀ (s : State) (rt rd : Reg) (x : BitVec 5) (y : BitVec 6),
    let D := s.gte.getD
    let C := s.gte.getC
    let ir (n : Reg) : Int := ((D n).setWidth 16).toInt
    decodeWord (rFormat 0x12 0x00 (regBits rt) (regBits rd) x y) = .mfc2 rt rd ∧
    decodeWord (rFormat 0x12 0x02 (regBits rt) (regBits rd) x y) = .cfc2 rt rd ∧
    (s.cfg.gteMoveMode = .raw → WritesReg (.mfc2 rt rd) s rt (D rd) ∧ WritesReg (.cfc2 rt rd) s rt (C rd)) ∧
    (s.cfg.gteMoveMode = .field →
      (∃ v, WritesReg (.mfc2 rt rd) s rt v ∧
        (rd ∈ ([1, 3, 5, 8, 9, 10, 11] : List Reg) → v = ((D rd).setWidth 16).signExtend 32) ∧
        (rd ∈ ([7, 16, 17, 18, 19] : List Reg) → v = ((D rd).setWidth 16).setWidth 32) ∧
        (rd = 15 → v = D 14) ∧
        (rd = 28 ∨ rd = 29 →
          ((v.extractLsb' 0 5).toNat : Int) = clamp (ir 9 >>> 7) 0 31 ∧
          ((v.extractLsb' 5 5).toNat : Int) = clamp (ir 10 >>> 7) 0 31 ∧
          ((v.extractLsb' 10 5).toNat : Int) = clamp (ir 11 >>> 7) 0 31 ∧ v.extractLsb' 15 17 = 0) ∧
        (rd = 31 → 1 ≤ v.toNat ∧ v.toNat ≤ 32 ∧
          (∀ k, k < v.toNat → (D 30).getLsbD (31 - k) = (D 30).getLsbD 31) ∧
          (v.toNat < 32 → (D 30).getLsbD (31 - v.toNat) ≠ (D 30).getLsbD 31)) ∧
        (rd ∈ ([0, 2, 4, 6, 12, 13, 14, 20, 21, 22, 23, 24, 25, 26, 27, 30] : List Reg) → v = D rd)) ∧
      (∃ v, WritesReg (.cfc2 rt rd) s rt v ∧
        (rd ∈ ([4, 12, 20, 26, 27, 29, 30] : List Reg) → v = ((C rd).setWidth 16).signExtend 32) ∧
        (rd ∉ ([4, 12, 20, 26, 27, 29, 30] : List Reg) → v = C rd)))

/-- mtc2 and ctc2 in both modes: what each write stores, and that no other register of the bank changes. -/
def Obligations.GteMoveWrites : Prop :=
  ∀ (s : State) (rt rd : Reg) (x : BitVec 5) (y : BitVec 6),
    let D := s.gte.getD
    let v := s.getReg rt
    let data (wr : List Reg) (P : Gte → Prop) : Prop :=
      ∃ t, exec (.mtc2 rt rd) s = .next t ∧ P t.gte ∧ Frame { gteD := wr } s t ∧ memoryKept s t
    let control (P : Gte → Prop) : Prop :=
      ∃ t, exec (.ctc2 rt rd) s = .next t ∧ P t.gte ∧ Frame { gteC := [rd] } s t ∧ memoryKept s t
    decodeWord (rFormat 0x12 0x04 (regBits rt) (regBits rd) x y) = .mtc2 rt rd ∧
    decodeWord (rFormat 0x12 0x06 (regBits rt) (regBits rd) x y) = .ctc2 rt rd ∧
    (s.cfg.gteMoveMode = .raw →
      data [rd] (fun g => g.getD rd = v) ∧ control (fun g => g.getC rd = v)) ∧
    (s.cfg.gteMoveMode = .field →
      (rd ∈ ([1, 3, 5, 8, 9, 10, 11] : List Reg) →
        data [rd] (fun g => g.getD rd = (v.setWidth 16).signExtend 32)) ∧
      (rd ∈ ([7, 16, 17, 18, 19] : List Reg) → data [rd] (fun g => g.getD rd = (v.setWidth 16).setWidth 32)) ∧
      (rd = 15 → data [12, 13, 14] (fun g => g.getD 12 = D 13 ∧ g.getD 13 = D 14 ∧ g.getD 14 = v)) ∧
      (rd = 28 → data [9, 10, 11] (fun g =>
        (g.getD 9).toNat = v.toNat % 32 * 128 ∧ (g.getD 10).toNat = v.toNat / 32 % 32 * 128 ∧
        (g.getD 11).toNat = v.toNat / 1024 % 32 * 128)) ∧
      (rd = 29 ∨ rd = 31 → data [] (fun _ => True)) ∧
      (rd ∈ ([0, 2, 4, 6, 12, 13, 14, 20, 21, 22, 23, 24, 25, 26, 27, 30] : List Reg) →
        data [rd] (fun g => g.getD rd = v)) ∧
      (rd ∈ ([4, 12, 20, 27, 29, 30] : List Reg) →
        control (fun g => g.getC rd = (v.setWidth 16).signExtend 32)) ∧
      (rd = 26 → control (fun g => g.getC 26 = (v.setWidth 16).setWidth 32)) ∧
      (rd = 31 → control (fun g => (g.getC 31).extractLsb' 12 19 = v.extractLsb' 12 19 ∧ flagWf (g.getC 31))) ∧
      (rd ∉ ([4, 12, 20, 26, 27, 29, 30, 31] : List Reg) → control (fun g => g.getC rd = v)))

/-- The saturation and check helpers of R478-R484: the value each gives, and the FLAG bit it sets exactly when the
value was outside its range. -/
def Obligations.SaturationHelpers : Prop :=
  ∀ (v : Int) (l : Lane) (lm : Bool),
    let sets (c : Checked) (n : Nat) (out : Prop) : Prop := c.flag.getLsbD n = true ↔ out
    let onlySets (c : Checked) (ns : List Nat) : Prop := ∀ n, n ∉ ns → c.flag.getLsbD n = false
    let clamped (c : Checked) (n : Nat) (lo hi : Int) : Prop :=
      c.val = (if v < lo then lo else if hi < v then hi else v) ∧ sets c n (v < lo ∨ hi < v) ∧ onlySets c [n]
    (((checkA l v).val - v) % 2 ^ 44 = 0 ∧ -2 ^ 43 ≤ (checkA l v).val ∧ (checkA l v).val < 2 ^ 43 ∧
      sets (checkA l v) (31 - l.index) (v > 2 ^ 43 - 1) ∧ sets (checkA l v) (28 - l.index) (v < -2 ^ 43) ∧
      onlySets (checkA l v) [31 - l.index, 28 - l.index]) ∧
    ((checkF v).val = v ∧ sets (checkF v) 16 (v > 2 ^ 31 - 1) ∧ sets (checkF v) 15 (v < -2 ^ 31) ∧
      onlySets (checkF v) [15, 16]) ∧
    clamped (limB l lm v) (25 - l.index) (if lm then 0 else -0x8000) 0x7FFF ∧
    clamped (limC l v) (22 - l.index) 0 0xFF ∧ clamped (limD v) 18 0 0xFFFF ∧
    clamped (limG1 v) 14 (-0x400) 0x3FF ∧ clamped (limG2 v) 13 (-0x400) 0x3FF ∧
    clamped (limH v) 12 0 0x1000

/-- The division: the overflow branch exactly when H is not below twice SZ3; where it does not overflow, the value
of R486's formula on integers, with the divisor shifted to 0x8000 .. 0xFFFF, the table of R485 and the two Newton
steps, and its bounds; the spec's worked examples. -/
def Obligations.DivisionBounds : Prop :=
  (∀ i, i ≤ 256 → (unr i : Int) = max 0 (((0x40000 / (i + 0x100) + 1) / 2 : Int) - 0x101) ∧ unr i ≤ 0xFF) ∧
  (∀ h sz : Nat, h < 2 ^ 16 → sz < 2 ^ 16 →
    ((divide h sz).flag.getLsbD 17 = true ↔ 2 * sz ≤ h) ∧
    (∀ n, n ≠ 17 → (divide h sz).flag.getLsbD n = false) ∧
    (2 * sz ≤ h → (divide h sz).val = 0x1FFFF) ∧ 0 ≤ (divide h sz).val ∧ (divide h sz).val ≤ 0x1FFFF ∧
    (h < 2 * sz → ∃ z ≤ 15,
      let d : Int := sz * 2 ^ z
      let i := (d - 0x7FC0) / 128
      let u : Int := max 0 ((0x40000 / (i + 0x100) + 1) / 2 - 0x101) + 0x101
      let d1 := (0x2000080 - d * u) / 256
      let d2 := (0x0000080 + d1 * u) / 256
      0x8000 ≤ d ∧ d ≤ 0xFFFF ∧ 0 ≤ i ∧ i ≤ 256 ∧ 0x101 ≤ u ∧ u ≤ 0x200 ∧ 0 ≤ 0x2000080 - d * u ∧
      (divide h sz).val = min 0x1FFFF ((h * 2 ^ z * d2 + 0x8000) / 65536))) ∧
  (divide 1000 1000).val = 0x10000 ∧ (divide 1000 2000).val = 0x8000 ∧
  (divide 1000 500).val = 0x1FFFF ∧ (divide 1000 500).flag.getLsbD 17 = true

/-- Every implemented command completes, and the laws of R522 hold of what it leaves; an unwritten register stays,
and no bit of FLAG survives from before. -/
def Obligations.GteCommandLaws : Prop :=
  ∀ (s : State) (i : Instr) (c : GteCmd), i.gteCmd = some c → c ∈ s.cfg.gteImplemented →
    ∃ t, exec i s = .next t ∧
      flagWf (t.gte.getC 31) ∧
      (∀ f : Word, exec i { s with gte := s.gte.setC 31 f } = .next t) ∧
      (∀ l : Lane, t.gte.getD l.ir = s.gte.getD l.ir ∨
        (-0x8000 ≤ (t.gte.getD l.ir).toInt ∧ (t.gte.getD l.ir).toInt ≤ 0x7FFF ∧
          (i.lm = true → 0 ≤ (t.gte.getD l.ir).toInt))) ∧
      (t.gte.getD 8 = s.gte.getD 8 ∨ (t.gte.getD 8).toNat ≤ 0x1000) ∧
      (t.gte.getD 7 = s.gte.getD 7 ∨ (t.gte.getD 7).toNat ≤ 0xFFFF) ∧
      (∀ n ∈ ([16, 17, 18, 19] : List Reg), (∃ m ∈ ([16, 17, 18, 19] : List Reg), t.gte.getD n = s.gte.getD m) ∨
        (t.gte.getD n).toNat ≤ 0xFFFF) ∧
      (∀ n ∈ ([12, 13, 14] : List Reg), (∃ m ∈ ([12, 13, 14] : List Reg), t.gte.getD n = s.gte.getD m) ∨
        (-0x400 ≤ s16 (t.gte.getD n) ∧ s16 (t.gte.getD n) ≤ 0x3FF ∧
          -0x400 ≤ hi16s (t.gte.getD n) ∧ hi16s (t.gte.getD n) ≤ 0x3FF)) ∧
      Frame { gteD := commandD, gteC := [31] } s t ∧ memoryKept s t

/-- A command number with no command, and a command outside GTE_IMPLEMENTED: one diagnostic, FLAG not cleared, no
register written. -/
def Obligations.GteUnknownLogged : Prop :=
  ∀ (s : State) (i : Instr),
    (∀ cmd, OnlyRecords (.gteUnknown cmd) s (.gteUnknown s.word s.curPC)) ∧
    (∀ c, i.gteCmd = some c → c ∉ s.cfg.gteImplemented → OnlyRecords i s (.gteUnknown s.word s.curPC))

/-- NCLIP, AVSZ3 and AVSZ4: MAC0 and OTZ from the exact integers, and all of FLAG. -/
def Obligations.ClipAndAverageResults : Prop :=
  ∀ (s : State) (sf lm : Bool),
    let g := s.gte
    let x (n : Reg) : Int := ((g.getD n).extractLsb' 0 16).toInt
    let y (n : Reg) : Int := ((g.getD n).extractLsb' 16 16).toInt
    let z (n : Reg) : Int := ((g.getD n).extractLsb' 0 16).toNat
    let zsf (n : Reg) : Int := ((g.getC n).extractLsb' 0 16).toInt
    let area := x 12 * y 13 + x 13 * y 14 + x 14 * y 12 - x 12 * y 14 - x 13 * y 12 - x 14 * y 13
    let mac0Flags (v : Int) (f : Word) : Prop :=
      (f.getLsbD 16 = true ↔ v > 2 ^ 31 - 1) ∧ (f.getLsbD 15 = true ↔ v < -2 ^ 31)
    let average (t : Gte) (v : Int) : Prop :=
      t.getD 24 = BitVec.ofInt 32 v ∧ ((t.getD 7).toNat : Int) = clamp (v / 4096) 0 0xFFFF ∧
      mac0Flags v (t.getC 31) ∧
      ((t.getC 31).getLsbD 18 = true ↔ (v / 4096 < 0 ∨ 0xFFFF < v / 4096)) ∧
      (∀ n, n ∉ ([15, 16, 18, 31] : List Nat) → (t.getC 31).getLsbD n = false)
    (GteCmd.nclip ∈ s.cfg.gteImplemented → Commands (.gteNclip sf lm) s (fun t =>
      t.getD 24 = BitVec.ofInt 32 area ∧ mac0Flags area (t.getC 31) ∧
      ∀ n, n ∉ ([15, 16, 31] : List Nat) → (t.getC 31).getLsbD n = false)) ∧
    (GteCmd.avsz3 ∈ s.cfg.gteImplemented → Commands (.gteAvsz3 sf lm) s (fun t =>
      average t (zsf 29 * (z 17 + z 18 + z 19)))) ∧
    (GteCmd.avsz4 ∈ s.cfg.gteImplemented → Commands (.gteAvsz4 sf lm) s (fun t =>
      average t (zsf 30 * (z 16 + z 17 + z 18 + z 19))))

/-- OP, SQR, GPF and GPL: the MAC registers from the exact integers of the registers before, the IR registers from
them, and the colour pushed by GPF and GPL. -/
def Obligations.ProductCommandResults : Prop :=
  ∀ (s : State) (sf lm : Bool),
    let g := s.gte
    let shift (v : Int) : Word := BitVec.ofInt 32 (if sf then v / 4096 else v)
    let ir (l : Lane) : Int := ((g.getD l.ir).extractLsb' 0 16).toInt
    let ir0 : Int := ((g.getD 8).extractLsb' 0 16).toInt
    let mac (l : Lane) : Int := (g.getD l.mac).toInt
    let rt11 : Int := ((g.getC 0).extractLsb' 0 16).toInt
    let rt22 : Int := ((g.getC 2).extractLsb' 0 16).toInt
    let rt33 : Int := ((g.getC 4).extractLsb' 0 16).toInt
    (GteCmd.op ∈ s.cfg.gteImplemented → Commands (.gteOp sf lm) s (fun t =>
      t.getD 25 = shift (ir .l3 * rt22 - ir .l2 * rt33) ∧ t.getD 26 = shift (ir .l1 * rt33 - ir .l3 * rt11) ∧
      t.getD 27 = shift (ir .l2 * rt11 - ir .l1 * rt22) ∧ irsFollowMacs lm t ∧
      (t.getC 31).extractLsb' 25 6 = 0)) ∧
    (GteCmd.sqr ∈ s.cfg.gteImplemented → Commands (.gteSqr sf lm) s (fun t =>
      (∀ l : Lane, t.getD l.mac = shift (ir l * ir l)) ∧ irsFollowMacs lm t ∧
      (t.getC 31).extractLsb' 25 6 = 0)) ∧
    (GteCmd.gpf ∈ s.cfg.gteImplemented → Commands (.gteGpf sf lm) s (fun t =>
      (∀ l : Lane, t.getD l.mac = shift (ir l * ir0)) ∧ irsFollowMacs lm t ∧ colourFollowsMacs t)) ∧
    (GteCmd.gpl ∈ s.cfg.gteImplemented → Commands (.gteGpl sf lm) s (fun t =>
      (∀ l : Lane, t.getD l.mac = shift (wrap44 ((if sf then mac l * 4096 else mac l) + ir l * ir0))) ∧
      irsFollowMacs lm t ∧ colourFollowsMacs t))

/-- MVMVA, its matrix, vector and translation written as registers and halves: MAC1-MAC3 are the exact sum of the
translation and the three products, wrapped once to 44 bits; with cv = 2 the far colour and the first column are
lost and still set flags; FLAG is exactly the bits of the checks. -/
def Obligations.MatrixVectorResults : Prop :=
  ∀ (s : State) (sf : Bool) (mx : MvmMatrix) (v : MvmVector) (cv : MvmTranslation) (lm : Bool),
    GteCmd.mvmva ∈ s.cfg.gteImplemented →
    let g := s.gte
    let m := mvmMatrixAt g mx
    let u := mvmVectorAt g v
    let tr := mvmTranslationAt g cv
    let far (l : Lane) : Int := tr l * 4096 + m l .l1 * u .l1
    let rest : Lanes := fun l => wrapped44 (m l .l2 * u .l2 + m l .l3 * u .l3)
    let leaves (sum : Lanes) (f : Nat → Prop) : Prop := Commands (.gteMvmva sf mx v cv lm) s (fun t =>
      (∀ l : Lane, t.getD l.mac = macWord sf (sum l)) ∧ irsFollowMacs lm t ∧
      flagIs t fun n => f n ∨ irFlag lm (fun l => macInt sf (sum l)) n)
    (cv ≠ .fc → leaves (mulSum m u tr) (macFlag (mulPartials m u tr))) ∧
    (cv = .fc → leaves rest fun n =>
      macFlag (fun l => [far l, m l .l2 * u .l2, wrapped44 (m l .l2 * u .l2) + m l .l3 * u .l3]) n ∨
      irFlag false (fun l => shifted sf (wrapped44 (far l))) n)

/-- RTPS, from the registers and halves it reads: the transformed vector in MAC and IR, the depth in SZ3, the
projected point in SXY2, the depth cue in MAC0 and IR0, the FIFOs shifted, and FLAG exactly the bits of R500's
checks, IR3's from the depth. The factor is Divide's, whose value DivisionBounds states. -/
def Obligations.PerspectiveResults : Prop :=
  ∀ (s : State) (sf lm : Bool), GteCmd.rtps ∈ s.cfg.gteImplemented →
    let g := s.gte
    Commands (.gteRtps sf lm) s (fun t =>
      perspLeaves g sf lm .l1 t ∧ irsFollowMacs lm t ∧
      t.getD 16 = g.getD 17 ∧ t.getD 17 = g.getD 18 ∧ t.getD 18 = g.getD 19 ∧
      ((t.getD 19).toNat : Int) = perspSz g .l1 ∧
      t.getD 12 = g.getD 13 ∧ t.getD 13 = g.getD 14 ∧ screenPoint g sf lm .l1 (t.getD 14) ∧
      flagIs t fun n => perspFlag g sf lm .l1 n ∨ cueFlag g .l1 n)

/-- Every command that pushes: MAC1-MAC3 and IR1-IR3 as the integers of R487-R491 on the registers before, and each
entry pushed. The commands of one vertex or colour shift the colour FIFO once and leave in RGB2 the colour of the
MAC registers with the CODE of RGBC; those of three leave in RGB0, RGB1, RGB2 the colours of the three, and in MAC
and IR the third. RTPT leaves three depths behind the old SZ3, three screen points, the third vertex in MAC and IR,
its depth cue, and FLAG exactly the bits of the three. -/
def Obligations.FifoPushes : Prop :=
  ∀ (s : State) (sf lm : Bool),
    let g := s.gte
    let rgb := bytesAt (g.getD 6)
    let ir := irsAt g
    let ir0 := lowHalf (g.getD 8)
    let lightIr (k : Lane) : Lanes := irsOf sf lm (lightSum g sf lm k)
    let irLightIr : Lanes := irsOf sf lm (irLightSum g)
    let scaledMac (l : Lane) : Int := (g.getD l.mac).toInt * (if sf then 4096 else 1)
    let one (c : GteCmd) (i : Instr) (sum : Lanes) : Prop := c ∈ s.cfg.gteImplemented → Commands i s (fun t =>
      (∀ l : Lane, t.getD l.mac = macWord sf (sum l)) ∧ irsFollowMacs lm t ∧
      t.getD 20 = g.getD 21 ∧ t.getD 21 = g.getD 22 ∧ colourOfSum g sf sum (t.getD 22))
    let three (c : GteCmd) (i : Instr) (sum : Lane → Lanes) : Prop := c ∈ s.cfg.gteImplemented →
      Commands i s (fun t =>
        (∀ l : Lane, t.getD l.mac = macWord sf (sum .l3 l)) ∧ irsFollowMacs lm t ∧
        colourOfSum g sf (sum .l1) (t.getD 20) ∧ colourOfSum g sf (sum .l2) (t.getD 21) ∧
        colourOfSum g sf (sum .l3) (t.getD 22))
    one .dpcs (.gteDpcs sf lm) (cueSum g sf fun l => rgb l * 65536) ∧
    one .intpl (.gteIntpl sf lm) (cueSum g sf fun l => ir l * 4096) ∧
    one .dcpl (.gteDcpl sf lm) (cueSum g sf (tint g ir)) ∧
    one .ncs (.gteNcs sf lm) (lightSum g sf lm .l1) ∧
    one .nccs (.gteNccs sf lm) (tintSum g (lightIr .l1)) ∧
    one .ncds (.gteNcds sf lm) (cueSum g sf (tint g (lightIr .l1))) ∧
    one .cc (.gteCc sf lm) (tintSum g irLightIr) ∧
    one .cdp (.gteCdp sf lm) (cueSum g sf (tint g irLightIr)) ∧
    one .gpf (.gteGpf sf lm) (fun l => wrapped44 (ir l * ir0)) ∧
    one .gpl (.gteGpl sf lm) (fun l => wrapped44 (scaledMac l + ir l * ir0)) ∧
    three .nct (.gteNct sf lm) (fun k => lightSum g sf lm k) ∧
    three .ncct (.gteNcct sf lm) (fun k => tintSum g (lightIr k)) ∧
    three .ncdt (.gteNcdt sf lm) (fun k => cueSum g sf (tint g (lightIr k))) ∧
    three .dpct (.gteDpct sf lm) (fun k => cueSum g sf fun l =>
      bytesAt (g.getD (match k with | .l1 => 20 | .l2 => 21 | .l3 => 22)) l * 65536) ∧
    (GteCmd.rtpt ∈ s.cfg.gteImplemented → Commands (.gteRtpt sf lm) s (fun t =>
      perspLeaves g sf lm .l3 t ∧ irsFollowMacs lm t ∧
      t.getD 16 = g.getD 19 ∧ ((t.getD 17).toNat : Int) = perspSz g .l1 ∧
      ((t.getD 18).toNat : Int) = perspSz g .l2 ∧ ((t.getD 19).toNat : Int) = perspSz g .l3 ∧
      screenPoint g sf lm .l1 (t.getD 12) ∧ screenPoint g sf lm .l2 (t.getD 13) ∧
      screenPoint g sf lm .l3 (t.getD 14) ∧
      flagIs t fun n => (∃ k : Lane, perspFlag g sf lm k n) ∨ cueFlag g .l3 n))

/-- With IR0 = 0 the depth cue is no cue: DPCS and DPCT reproduce the colour, INTPL the IR vector, and NCDS, CDP and
NCDT leave the data registers NCCS, CC and NCCT leave. -/
def Obligations.DepthCueWithZeroFactor : Prop :=
  ∀ (s : State) (sf lm : Bool),
    ((s.gte.getD 8).extractLsb' 0 16) = 0 → (∀ c : GteCmd, c ∈ s.cfg.gteImplemented) →
    let shift (v : Int) : Word := BitVec.ofInt 32 (if sf then v / 4096 else v)
    let colour (w : Word) (l : Lane) : Int := ((byteOf w (l.index - 1)).toNat : Int)
    Commands (.gteDpcs sf lm) s (fun t => ∀ l : Lane, t.getD l.mac = shift (colour (s.gte.getD 6) l * 65536)) ∧
    Commands (.gteDpct sf lm) s (fun t => ∀ l : Lane, t.getD l.mac = shift (colour (s.gte.getD 22) l * 65536)) ∧
    Commands (.gteIntpl sf lm) s (fun t =>
      ∀ l : Lane, t.getD l.mac = shift (((s.gte.getD l.ir).extractLsb' 0 16).toInt * 4096)) ∧
    (∃ t u, exec (.gteNcds sf lm) s = .next t ∧ exec (.gteNccs sf lm) s = .next u ∧ t.gte.d = u.gte.d) ∧
    (∃ t u, exec (.gteCdp sf lm) s = .next t ∧ exec (.gteCc sf lm) s = .next u ∧ t.gte.d = u.gte.d) ∧
    (∃ t u, exec (.gteNcdt sf lm) s = .next t ∧ exec (.gteNcct sf lm) s = .next u ∧ t.gte.d = u.gte.d)

/-! ## The step -/

/-- A step that reaches an instruction is exec of it, in the state `u` after the pc advance, with the hazard
bookkeeping of the instruction noted; the nop is no exception to this. Beside curPC, the word, the delay-slot and
branch state and pc, `u` is as `s` was, Cause.IP2 and the record of the fetch apart. The word is, in RAM and ROM,
the one of the four bytes at pc's physical address, the scratchpad never looked at (R105); where nothing answers it
is 0, with a diagnostic (R114); from a device it is what the device answers, with an event (R113; the list of
events is log 10). -/
def Obligations.StepRunsDecodedInstruction : Prop :=
  (∀ (s u : State) (w : Word), Reaches s w u → refusalBefore (decodeWord w) u = none →
    step s = exec (decodeWord w) (u.noteHazards (decodeWord w))) ∧
  (∀ (s u : State) (w : Word), Reaches s w u →
    u.curPC = s.pc ∧ u.word = w ∧ u.inDelaySlot = s.branchPending ∧ u.branchPending = false ∧
    u.pc = (if s.branchPending then s.branchTarget else s.pc + 4) ∧
    (∀ r, u.getReg r = s.getReg r) ∧ u.hi = s.hi ∧ u.lo = s.lo ∧ u.branchTarget = s.branchTarget ∧
    (∀ n, n ≠ 13 → u.getCop0 n = s.getCop0 n) ∧
    (∀ k, k ≠ 10 → (u.getCop0 13).getLsbD k = (s.getCop0 13).getLsbD k) ∧
    u.gte = s.gte ∧ u.ram = s.ram ∧ u.rom = s.rom ∧ u.scratch = s.scratch ∧ u.cacheCtrl = s.cacheCtrl ∧
    u.cfg = s.cfg ∧ u.lastLoadDest = s.lastLoadDest ∧ u.lastLwlLwr = s.lastLwlLwr ∧
    u.gteWriteAge = s.gteWriteAge ∧ u.hiloReadAge = s.hiloReadAge) ∧
  (∀ (s u : State) (w : Word), Reaches s w u →
    let p := translate s.cfg s.pc
    let quiet : Prop := u.diag = s.diag ∧ u.events = s.events ∧ u.draws = s.draws
    let wordAt (m : Memory) (off : Nat) : Prop := ∀ k, k < 4 → byteOf w k = m.read (off + k)
    (rangeAt s.cfg p = none →
      w = 0 ∧ u.diag = s.diag ++ [.unhandledRead p .word] ∧ u.events = s.events ∧ u.draws = s.draws) ∧
    ∀ r : BusRange, rangeAt s.cfg p = some r →
      (r.device = .ram → wordAt s.ram (p.toNat - r.base) ∧ quiet) ∧
      (r.device = .rom → wordAt s.rom (p.toNat - r.base) ∧ quiet) ∧
      ∀ d, r.device = .peripheral d → u.diag = s.diag ∧ u.events = s.events ++ [.read d p .word w]) ∧
  (∀ w : Word, decode (bytesOfWord w) = .ok (decodeWord w, []) ∧
    ∀ k, k < 4 → (bytesOfWord w)[k]? = some (byteOf w k))

/-- A held step changes nothing of the machine, whatever else is due; it consumes the inputs it sampled (log 3). At
HALT_PC the run ends and no step is executed. -/
def Obligations.HoldAndEndOfRun : Prop :=
  ∀ s : State,
    (s.cfg.haltPc = some s.pc → step s = .fault .runEnded) ∧
    (s.cfg.haltPc ≠ some s.pc → ∀ (input : StepInput) (rest : List StepInput),
      s.inputs = input :: rest → input.hold = true →
        step s = .next { s with inputs := rest, lineStatus := input.lineStatus })

/-- The interrupt phase: IP2 follows the line, and when it or an enabled software interrupt is pending, unmasked and
enabled, the step takes the interrupt instead of the instruction, which EPC names. -/
def Obligations.InterruptTaken : Prop :=
  ∀ s : State, s.cfg.haltPc ≠ some s.pc → s.held = false →
    let line := s.sample.lineStatus
    let ip2 := s.cfg.irqTable.getLsbD line.toNat
    let status := s.getCop0 12
    let cause := s.getCop0 13
    let t := s.sample.updateIp2
    let take : Prop := status.getLsbD 0 = true ∧ ((ip2 = true ∧ status.getLsbD 10 = true) ∨
      (s.cfg.swInterrupts = true ∧ ((cause.getLsbD 8 = true ∧ status.getLsbD 8 = true) ∨
        (cause.getLsbD 9 = true ∧ status.getLsbD 9 = true))))
    (t.getCop0 13).getLsbD 10 = ip2 ∧ (∀ k, k ≠ 10 → (t.getCop0 13).getLsbD k = cause.getLsbD k) ∧
    (t.takesInterrupt = true ↔ take) ∧
    (take → ∃ u, step s = .next u ∧
      Entered .int none { t with curPC := s.pc, inDelaySlot := s.branchPending } u) ∧
    (s.cfg.irqTable = defaultIrqTable → (ip2 = true ↔ line ≠ 0))

/-- A pc that is no multiple of 4 is never fetched from: AdEL with BadVAddr = pc, EPC naming pc, or the branch that
is pending. -/
def Obligations.MisalignedFetch : Prop :=
  ∀ s : State, s.cfg.haltPc ≠ some s.pc → s.held = false → s.sample.updateIp2.takesInterrupt = false →
    s.pc.toNat % 4 ≠ 0 →
    ∃ u, step s = .next u ∧
      Entered .adEL (some s.pc)
        { s.sample.updateIp2 with curPC := s.pc, inDelaySlot := s.branchPending } u

/-- The branch delay: a step that runs an instruction with no branch pending leaves pc at the next word, taken
branch or not; with a branch pending it runs the delay slot's instruction and leaves pc at the target; an
instruction that raises goes to the vector in both cases. -/
def Obligations.BranchDelay : Prop :=
  ∀ (s t u : State) (w : Word), Reaches s w u → step s = .next t →
    (t.pc = (if s.branchPending then s.branchTarget else s.pc + 4) ∨
      ((decodeWord w).mayRaise = true ∧ t.pc = exceptionVector u.bev)) ∧
    t.curPC = s.pc ∧ t.inDelaySlot = s.branchPending ∧
    (t.branchPending = true → s.branchPending = false ∧ (decodeWord w).isBranchOrJump = true) ∧
    (t.branchTarget ≠ s.branchTarget → t.branchPending = true)

/-- A branch or jump fetched in a delay slot is refused before it executes; the words so refused are the rows of
R315-R325. -/
def Obligations.BranchInDelaySlotRefused : Prop :=
  (∀ (s u : State) (w : Word), Reaches s w u → s.branchPending = true → (decodeWord w).isBranchOrJump = true →
    step s = .refused .branchInDelaySlot) ∧
  (∀ w : Word, (decodeWord w).isBranchOrJump = true ↔
    opField w ∈ ([0x02, 0x03, 0x04, 0x05, 0x06, 0x07] : List (BitVec 6)) ∨
    (opField w = 0x00 ∧ functField w ∈ ([0x08, 0x09] : List (BitVec 6))) ∨
    (opField w = 0x01 ∧ rtField w ∈ ([0x00, 0x01, 0x10, 0x11] : List (BitVec 5))))

/-- The hazard policy, by the fields of the word: under `immediate` no hazard is refused; under `refuse` exactly
the three hazards are, in the order of R631, with its table of the registers a word reads; and the bookkeeping a
step leaves under `refuse`, the nop's among them: the word's own, or, after an exception, none. The rt of the lwl
or lwr before is the model's own field (log 12); that the pair is exempt also where its second base is that rt is
the model's choice between R625 and R631 (log 23). -/
def Obligations.HazardRefusals : Prop :=
  ∀ (s u : State) (w : Word), Reaches s w u →
    let i := decodeWord w
    let load : Prop := ∃ r, s.lastLoadDest = some r ∧ wordReads s.cfg.unalignedMode w r ∧
      ¬(wordLwlLwr w r ∧ s.lastLwlLwr = some r)
    let gte : Prop := wordGteCommand w ∧ (s.gteWriteAge = some 0 ∨ s.gteWriteAge = some 1)
    let hilo : Prop := wordWritesHiLo w ∧ (s.hiloReadAge = some 0 ∨ s.hiloReadAge = some 1)
    (w ≠ 0 → (u.inDelaySlot = true → i.isBranchOrJump = false) →
      (s.cfg.hazardPolicy = .immediate → step s = exec i u) ∧
      (s.cfg.hazardPolicy = .refuse →
        (load → step s = .refused .loadDelayHazard) ∧
        (¬load → gte → step s = .refused .gteWriteHazard) ∧
        (¬load → ¬gte → hilo → step s = .refused .hiLoHazard) ∧
        (¬load → ¬gte → ¬hilo → step s = exec i (u.noteHazards i)))) ∧
    (s.cfg.hazardPolicy = .refuse → ∀ t, step s = .next t →
      (i.mayRaise = true ∧ ∃ code badVAddr, Entered code badVAddr u t) ∨
      ((∀ r, t.lastLoadDest = some r ↔ wordLoads w r) ∧ (∀ r, t.lastLwlLwr = some r ↔ wordLwlLwr w r) ∧
        AgesTo (wordWritesGte w) s.gteWriteAge t.gteWriteAge ∧
        AgesTo (wordReadsHiLo w) s.hiloReadAge t.hiloReadAge))

/-- Every step keeps the invariant: canonical memories, register 0's storage zero, the hazard bookkeeping. -/
def Obligations.InvariantKept : Prop := ∀ s t : State, s.Inv → step s = .next t → t.Inv

/-- The invariants hold right after reset. -/
def Obligations.InvariantAtReset : Prop :=
  State.reset.Inv ∧ State.reset.cfg.mapOk ∧ State.reset.gte.fieldWf

/-- Under `field`, every step keeps the 16-bit registers of the bank 16-bit values and FLAG as R426-R428 say. -/
def Obligations.GteFieldInvariantKept : Prop :=
  ∀ s t : State, s.cfg.gteMoveMode = .field → s.gte.fieldWf → step s = .next t → t.gte.fieldWf

/-- Over every step: the parameters and the ROM stay, the diagnostic list and the device events only grow, the
interrupt line is the one sampled, and a step adds at most two diagnostics and two device
events (one of the fetch, one of the instruction). That the inputs to come are a queue a step shortens by one, and
the line kept in State, is log 3; that the parameters are a field no step writes is log 1; the list of device
events is log 10 (each a DESIGN CHOICE). -/
def Obligations.StepNeverRewritesHistory : Prop :=
  ∀ s t : State, step s = .next t →
    t.cfg = s.cfg ∧ t.rom = s.rom ∧ t.lineStatus = s.sample.lineStatus ∧ t.inputs = s.inputs.tail ∧
    (∃ ds, t.diag = s.diag ++ ds ∧ ds.length ≤ 2) ∧
    (∃ es, t.events = s.events ++ es ∧ es.length ≤ 2)

/-- Reset: every value the spec states (R611-R616, R618, R620, R621), right after power-on and after a reset of a
running machine, which keeps the ROM image and the interrupt line (R619, R623). That the parameters are a field with
the defaults of R12 at power-on is log 1, and that a reset of a running machine keeps them is log 20 (DESIGN
CHOICE). -/
def Obligations.ResetValues : Prop :=
  (State.reset.cfg = defaultConfig ∧ ∀ s : State, s.hostReset.cfg = s.cfg ∧ s.hostReset.rom = s.rom ∧
    s.hostReset.lineStatus = s.lineStatus) ∧
  ∀ s : State, (s = State.reset ∨ ∃ s', s = State.hostReset s') →
    s.getProgramCounter = 0xBFC00000 ∧ (∀ r, s.getGeneralRegister r = 0) ∧ s.getHi = 0 ∧ s.getLo = 0 ∧
    s.branchPending = false ∧ s.branchTarget = 0 ∧ s.getCop0 12 = 0x00600000 ∧ s.getCop0 15 = s.cfg.prid ∧
    (∀ n, s.gte.getD n = 0 ∧ s.gte.getC n = 0) ∧ s.diag = [] ∧
    s.lastLoadDest = none ∧ s.gteWriteAge = none ∧ s.hiloReadAge = none
end

