-- ==== Sys2Proof/Laws/Encoding.lean ====
section
/-! SUPPORT. The fields of the words the formats build, so that decoding an encoded word is a matter of rewriting. -/

namespace Sys2Proof

/-! ## Register numbers and small fields -/

@[simp] theorem regOf_regBits (r : Reg) : regOf (regBits r) = r := by
  apply Fin.ext
  simp [regOf, regBits]

@[simp] theorem regBits_regOf (b : BitVec 5) : regBits (regOf b) = b := by
  simp [regOf, regBits]

@[simp] theorem mvmMatrixOf_bits (m : MvmMatrix) : mvmMatrixOf (mvmMatrixBits m) = m := by cases m <;> rfl
@[simp] theorem mvmVectorOf_bits (v : MvmVector) : mvmVectorOf (mvmVectorBits v) = v := by cases v <;> rfl
@[simp] theorem mvmTranslationOf_bits (t : MvmTranslation) : mvmTranslationOf (mvmTranslationBits t) = t := by
  cases t <;> rfl

/-! ## Slices of a concatenation -/

/-- A slice inside the lower part. -/
theorem extract_append_low {m n : Nat} (a : BitVec m) (b : BitVec n) (lo k : Nat) (h : lo + k ≤ n) :
    (a ++ b).extractLsb' lo k = b.extractLsb' lo k := by
  apply BitVec.eq_of_getLsbD_eq
  intro i hi
  simp only [BitVec.getLsbD_extractLsb', BitVec.getLsbD_append]
  have h1 : lo + i < n := by omega
  simp [h1]

/-- A slice inside the upper part. -/
theorem extract_append_high {m n : Nat} (a : BitVec m) (b : BitVec n) (lo k : Nat) (h : n ≤ lo) :
    (a ++ b).extractLsb' lo k = a.extractLsb' (lo - n) k := by
  apply BitVec.eq_of_getLsbD_eq
  intro i hi
  simp only [BitVec.getLsbD_extractLsb', BitVec.getLsbD_append]
  have h1 : ¬lo + i < n := by omega
  have h2 : lo + i - n = lo - n + i := by omega
  simp [h1, h2]

/-- The whole of a vector as a slice. -/
theorem extract_whole {n : Nat} (a : BitVec n) : a.extractLsb' 0 n = a := by
  apply BitVec.eq_of_getLsbD_eq
  intro i hi
  simp [hi]

theorem getLsbD_append_low {m n : Nat} (a : BitVec m) (b : BitVec n) (i : Nat) (h : i < n) :
    (a ++ b).getLsbD i = b.getLsbD i := by
  simp [BitVec.getLsbD_append, h]

theorem getLsbD_append_high {m n : Nat} (a : BitVec m) (b : BitVec n) (i : Nat) (h : n ≤ i) :
    (a ++ b).getLsbD i = a.getLsbD (i - n) := by
  have h1 : ¬i < n := by omega
  simp [BitVec.getLsbD_append, h1]

/-! ## R format -/

section
variable (op : BitVec 6) (a b c d : BitVec 5) (f : BitVec 6)

@[simp] theorem opField_rFormat : opField (rFormat op a b c d f) = op := by
  simp only [opField, rFormat, extract_append_high _ _ _ _ (show 6 ≤ 26 by omega),
    extract_append_high _ _ _ _ (show 5 ≤ 26 - 6 by omega), extract_append_high _ _ _ _ (show 5 ≤ 26 - 6 - 5 by omega),
    extract_append_high _ _ _ _ (show 5 ≤ 26 - 6 - 5 - 5 by omega),
    extract_append_high _ _ _ _ (show 5 ≤ 26 - 6 - 5 - 5 - 5 by omega)]
  exact extract_whole op

@[simp] theorem rsField_rFormat : rsField (rFormat op a b c d f) = a := by
  simp only [rsField, rFormat, extract_append_high _ _ _ _ (show 6 ≤ 21 by omega),
    extract_append_high _ _ _ _ (show 5 ≤ 21 - 6 by omega), extract_append_high _ _ _ _ (show 5 ≤ 21 - 6 - 5 by omega),
    extract_append_high _ _ _ _ (show 5 ≤ 21 - 6 - 5 - 5 by omega),
    extract_append_low _ _ _ _ (show 21 - 6 - 5 - 5 - 5 + 5 ≤ 5 by omega)]
  exact extract_whole a

@[simp] theorem rtField_rFormat : rtField (rFormat op a b c d f) = b := by
  simp only [rtField, rFormat, extract_append_high _ _ _ _ (show 6 ≤ 16 by omega),
    extract_append_high _ _ _ _ (show 5 ≤ 16 - 6 by omega), extract_append_high _ _ _ _ (show 5 ≤ 16 - 6 - 5 by omega),
    extract_append_low _ _ _ _ (show 16 - 6 - 5 - 5 + 5 ≤ 5 by omega)]
  exact extract_whole b

@[simp] theorem rdField_rFormat : rdField (rFormat op a b c d f) = c := by
  simp only [rdField, rFormat, extract_append_high _ _ _ _ (show 6 ≤ 11 by omega),
    extract_append_high _ _ _ _ (show 5 ≤ 11 - 6 by omega),
    extract_append_low _ _ _ _ (show 11 - 6 - 5 + 5 ≤ 5 by omega)]
  exact extract_whole c

@[simp] theorem shamtField_rFormat : shamtField (rFormat op a b c d f) = d := by
  simp only [shamtField, rFormat, extract_append_high _ _ _ _ (show 6 ≤ 6 by omega),
    extract_append_low _ _ _ _ (show 6 - 6 + 5 ≤ 5 by omega)]
  exact extract_whole d

@[simp] theorem functField_rFormat : functField (rFormat op a b c d f) = f := by
  simp only [functField, rFormat, extract_append_low _ _ _ _ (show 0 + 6 ≤ 6 by omega)]
  exact extract_whole f

/-- Bit 25 is the top bit of the rs field. -/
@[simp] theorem coField_rFormat : coField (rFormat op a b c d f) = a.getLsbD 4 := by
  simp only [coField, rFormat]
  rw [getLsbD_append_high _ _ _ (by omega), getLsbD_append_high _ _ _ (by omega),
    getLsbD_append_high _ _ _ (by omega), getLsbD_append_high _ _ _ (by omega),
    getLsbD_append_low _ _ _ (by omega)]

end

/-! ## I format -/

section
variable (op : BitVec 6) (a b : BitVec 5) (imm : BitVec 16)

@[simp] theorem opField_iFormat : opField (iFormat op a b imm) = op := by
  simp only [opField, iFormat, extract_append_high _ _ _ _ (show 16 ≤ 26 by omega),
    extract_append_high _ _ _ _ (show 5 ≤ 26 - 16 by omega),
    extract_append_high _ _ _ _ (show 5 ≤ 26 - 16 - 5 by omega)]
  exact extract_whole op

@[simp] theorem rsField_iFormat : rsField (iFormat op a b imm) = a := by
  simp only [rsField, iFormat, extract_append_high _ _ _ _ (show 16 ≤ 21 by omega),
    extract_append_high _ _ _ _ (show 5 ≤ 21 - 16 by omega),
    extract_append_low _ _ _ _ (show 21 - 16 - 5 + 5 ≤ 5 by omega)]
  exact extract_whole a

@[simp] theorem rtField_iFormat : rtField (iFormat op a b imm) = b := by
  simp only [rtField, iFormat, extract_append_high _ _ _ _ (show 16 ≤ 16 by omega),
    extract_append_low _ _ _ _ (show 16 - 16 + 5 ≤ 5 by omega)]
  exact extract_whole b

@[simp] theorem immField_iFormat : immField (iFormat op a b imm) = imm := by
  simp only [immField, iFormat, extract_append_low _ _ _ _ (show 0 + 16 ≤ 16 by omega)]
  exact extract_whole imm

end

/-! ## J format, also the format of a coprocessor word -/

section
variable (op : BitVec 6) (t : BitVec 26)

@[simp] theorem opField_jFormat : opField (jFormat op t) = op := by
  simp only [opField, jFormat, extract_append_high _ _ _ _ (show 26 ≤ 26 by omega)]
  exact extract_whole op

@[simp] theorem targetField_jFormat : targetField (jFormat op t) = t := by
  simp only [targetField, jFormat, extract_append_low _ _ _ _ (show 0 + 26 ≤ 26 by omega)]
  exact extract_whole t

@[simp] theorem cofunField_jFormat : cofunField (jFormat op t) = t := targetField_jFormat op t

@[simp] theorem rsField_jFormat : rsField (jFormat op t) = t.extractLsb' 21 5 := by
  simp only [rsField, jFormat, extract_append_low _ _ _ _ (show 21 + 5 ≤ 26 by omega)]

@[simp] theorem functField_jFormat : functField (jFormat op t) = t.extractLsb' 0 6 := by
  simp only [functField, jFormat, extract_append_low _ _ _ _ (show 0 + 6 ≤ 26 by omega)]

@[simp] theorem coField_jFormat : coField (jFormat op t) = t.getLsbD 25 := by
  simp only [coField, jFormat, getLsbD_append_low _ _ _ (show 25 < 26 by omega)]

end

/-! ## syscall and break -/

section
variable (code : BitVec 20) (f : BitVec 6)

@[simp] theorem opField_codeFormat : opField (codeFormat code f) = 0 := by
  simp only [opField, codeFormat, extract_append_high _ _ _ _ (show 6 ≤ 26 by omega),
    extract_append_high _ _ _ _ (show 20 ≤ 26 - 6 by omega)]
  exact extract_whole _

@[simp] theorem functField_codeFormat : functField (codeFormat code f) = f := by
  simp only [functField, codeFormat, extract_append_low _ _ _ _ (show 0 + 6 ≤ 6 by omega)]
  exact extract_whole f

@[simp] theorem codeField_codeFormat : codeField (codeFormat code f) = code := by
  simp only [codeField, codeFormat, extract_append_high _ _ _ _ (show 6 ≤ 6 by omega),
    extract_append_low _ _ _ _ (show 6 - 6 + 20 ≤ 20 by omega)]
  exact extract_whole code

end

/-! ## Coprocessor operations: op, 1, anything, funct -/

/-- A coprocessor operation's word with its unread bits open. -/
def copWord (op : BitVec 6) (x : BitVec 19) (f : BitVec 6) : Word := op ++ (1#1 : BitVec 1) ++ x ++ f

theorem copOpFormat_eq (op f : BitVec 6) : copOpFormat op f = copWord op 0 f := rfl

section
variable (op f : BitVec 6) (x : BitVec 19)

@[simp] theorem opField_copWord : opField (copWord op x f) = op := by
  simp only [opField, copWord, extract_append_high _ _ _ _ (show 6 ≤ 26 by omega),
    extract_append_high _ _ _ _ (show 19 ≤ 26 - 6 by omega),
    extract_append_high _ _ _ _ (show 1 ≤ 26 - 6 - 19 by omega)]
  exact extract_whole op

@[simp] theorem coField_copWord : coField (copWord op x f) = true := by
  simp only [coField, copWord]
  rw [getLsbD_append_high _ _ _ (by omega), getLsbD_append_high _ _ _ (by omega),
    getLsbD_append_low _ _ _ (by omega)]
  rfl

@[simp] theorem functField_copWord : functField (copWord op x f) = f := by
  simp only [functField, copWord, extract_append_low _ _ _ _ (show 0 + 6 ≤ 6 by omega)]
  exact extract_whole f

end

/-! ## GTE command words (R441) -/

/-- A GTE command word with every field open. -/
def gteWord (r : BitVec 5) (b20 : BitVec 1) (sf : Bool) (mx v cv x : BitVec 2) (lm : Bool) (y : BitVec 4)
    (cmd : BitVec 6) : Word :=
  (0x12#6 : BitVec 6) ++ r ++ b20 ++ BitVec.ofBool sf ++ mx ++ v ++ cv ++ x ++ BitVec.ofBool lm ++ y ++ cmd

section
variable (r : BitVec 5) (b20 : BitVec 1) (sf : Bool) (mx v cv x : BitVec 2) (lm : Bool) (y : BitVec 4)
  (cmd : BitVec 6)

@[simp] theorem opField_gteWord : opField (gteWord r b20 sf mx v cv x lm y cmd) = 0x12#6 := by
  unfold opField gteWord
  repeat rw [extract_append_high _ _ _ _ (by omega)]
  exact extract_whole _

@[simp] theorem rsField_gteWord : rsField (gteWord r b20 sf mx v cv x lm y cmd) = r := by
  unfold rsField gteWord
  iterate 9 rw [extract_append_high _ _ _ _ (by omega)]
  rw [extract_append_low _ _ _ _ (by omega)]
  exact extract_whole _

@[simp] theorem sfField_gteWord : sfField (gteWord r b20 sf mx v cv x lm y cmd) = sf := by
  unfold sfField gteWord
  iterate 7 rw [getLsbD_append_high _ _ _ (by omega)]
  rw [getLsbD_append_low _ _ _ (by omega)]
  cases sf <;> rfl

@[simp] theorem lmField_gteWord : lmField (gteWord r b20 sf mx v cv x lm y cmd) = lm := by
  unfold lmField gteWord
  iterate 2 rw [getLsbD_append_high _ _ _ (by omega)]
  rw [getLsbD_append_low _ _ _ (by omega)]
  cases lm <;> rfl

@[simp] theorem mxField_gteWord : mxField (gteWord r b20 sf mx v cv x lm y cmd) = mvmMatrixOf mx := by
  unfold mxField gteWord
  iterate 6 rw [extract_append_high _ _ _ _ (by omega)]
  rw [extract_append_low _ _ _ _ (by omega)]
  congr 1
  exact extract_whole _

@[simp] theorem vField_gteWord : vField (gteWord r b20 sf mx v cv x lm y cmd) = mvmVectorOf v := by
  unfold vField gteWord
  iterate 5 rw [extract_append_high _ _ _ _ (by omega)]
  rw [extract_append_low _ _ _ _ (by omega)]
  congr 1
  exact extract_whole _

@[simp] theorem cvField_gteWord : cvField (gteWord r b20 sf mx v cv x lm y cmd) = mvmTranslationOf cv := by
  unfold cvField gteWord
  iterate 4 rw [extract_append_high _ _ _ _ (by omega)]
  rw [extract_append_low _ _ _ _ (by omega)]
  congr 1
  exact extract_whole _

@[simp] theorem functField_gteWord : functField (gteWord r b20 sf mx v cv x lm y cmd) = cmd := by
  unfold functField gteWord
  rw [extract_append_low _ _ _ _ (by omega)]
  exact extract_whole _

end

/-- The encoder's GTE word, with its zero bits in their fields. -/
theorem gteFormat_eq (sf : Bool) (mx v cv : BitVec 2) (lm : Bool) (cmd : BitVec 6) :
    gteFormat sf mx v cv lm cmd = gteWord 0x10#5 0#1 sf mx v cv 0#2 lm 0#4 cmd := by
  have h : ∀ (a : BitVec 6), a ++ (1#1 : BitVec 1) ++ (0#5 : BitVec 5) = a ++ (0x10#5 : BitVec 5) ++ (0#1 : BitVec 1) := by
    decide
  simp only [gteFormat, gteWord, bit, h]

/-! ## The decoder, table by table -/

section
variable {w : Word} {op funct : BitVec 6} {rs rt : BitVec 5}

theorem decodeWord_op (h : opField w = op) : decodeWord w = instructionOf op w := by rw [decodeWord, h]

theorem decodeWord_special (h : opField w = 0x00#6) (hf : functField w = funct) :
    decodeWord w = specialOf funct w := by
  rw [decodeWord_op h, ← hf]
  rfl

theorem decodeWord_regimm (h : opField w = 0x01#6) (hr : rtField w = rt) : decodeWord w = regimmOf rt w := by
  rw [decodeWord_op h, ← hr]
  rfl

theorem decodeWord_cop0Move (h : opField w = 0x10#6) (hc : coField w = false) (hr : rsField w = rs) :
    decodeWord w = cop0MoveOf rs w := by
  rw [decodeWord_op h, ← hr]
  show decodeCop0 w = _
  simp [decodeCop0, hc]

theorem decodeWord_cop0Operation (h : opField w = 0x10#6) (hc : coField w = true) (hf : functField w = funct) :
    decodeWord w = cop0OperationOf funct w := by
  rw [decodeWord_op h, ← hf]
  show decodeCop0 w = _
  simp [decodeCop0, hc]

theorem decodeWord_cop2 (h : opField w = 0x12#6) (hr : rsField w = rs) : decodeWord w = cop2Of rs w := by
  rw [decodeWord_op h, ← hr]
  rfl

/-- A COP2 word that is no move is a command. -/
theorem decodeWord_gte (h : opField w = 0x12#6) (h0 : rsField w ≠ 0x00#5) (h2 : rsField w ≠ 0x02#5)
    (h4 : rsField w ≠ 0x04#5) (h6 : rsField w ≠ 0x06#5) (hf : functField w = funct) :
    decodeWord w = gteCommandOf funct w := by
  rw [decodeWord_cop2 h rfl, ← hf]
  unfold cop2Of
  split <;> first | contradiction | rfl

end

/-! ## The decoder on the formats -/

theorem decodeWord_rFormat_special (a b c d : BitVec 5) (f : BitVec 6) :
    decodeWord (rFormat 0x00 a b c d f) = specialOf f (rFormat 0x00 a b c d f) :=
  decodeWord_special (opField_rFormat ..) (functField_rFormat ..)

theorem decodeWord_codeFormat (code : BitVec 20) (f : BitVec 6) :
    decodeWord (codeFormat code f) = specialOf f (codeFormat code f) :=
  decodeWord_special (opField_codeFormat ..) (functField_codeFormat ..)

theorem decodeWord_iFormat (op : BitVec 6) (a b : BitVec 5) (imm : BitVec 16) :
    decodeWord (iFormat op a b imm) = instructionOf op (iFormat op a b imm) :=
  decodeWord_op (opField_iFormat ..)

theorem decodeWord_iFormat_regimm (a b : BitVec 5) (imm : BitVec 16) :
    decodeWord (iFormat 0x01 a b imm) = regimmOf b (iFormat 0x01 a b imm) :=
  decodeWord_regimm (opField_iFormat ..) (rtField_iFormat ..)

theorem decodeWord_jFormat (op : BitVec 6) (t : BitVec 26) :
    decodeWord (jFormat op t) = instructionOf op (jFormat op t) :=
  decodeWord_op (opField_jFormat ..)

theorem decodeWord_copWord (x : BitVec 19) (f : BitVec 6) :
    decodeWord (copWord 0x10 x f) = cop0OperationOf f (copWord 0x10 x f) :=
  decodeWord_cop0Operation (opField_copWord ..) (coField_copWord ..) (functField_copWord ..)

theorem decodeWord_rFormat_cop0 (a b c d : BitVec 5) (f : BitVec 6) (h : a.getLsbD 4 = false) :
    decodeWord (rFormat 0x10 a b c d f) = cop0MoveOf a (rFormat 0x10 a b c d f) :=
  decodeWord_cop0Move (opField_rFormat ..) ((coField_rFormat ..).trans h) (rsField_rFormat ..)

theorem decodeWord_rFormat_cop2 (a b c d : BitVec 5) (f : BitVec 6) :
    decodeWord (rFormat 0x12 a b c d f) = cop2Of a (rFormat 0x12 a b c d f) :=
  decodeWord_cop2 (opField_rFormat ..) (rsField_rFormat ..)

/-- A command word decodes by its number, whatever its other bits are. -/
theorem decodeWord_gteWord (r : BitVec 5) (b20 : BitVec 1) (sf : Bool) (mx v cv x : BitVec 2) (lm : Bool)
    (y : BitVec 4) (cmd : BitVec 6) (h0 : r ≠ 0x00#5) (h2 : r ≠ 0x02#5) (h4 : r ≠ 0x04#5) (h6 : r ≠ 0x06#5) :
    decodeWord (gteWord r b20 sf mx v cv x lm y cmd) = gteCommandOf cmd (gteWord r b20 sf mx v cv x lm y cmd) :=
  decodeWord_gte (opField_gteWord ..) (by simpa using h0) (by simpa using h2) (by simpa using h4)
    (by simpa using h6) (functField_gteWord ..)

theorem decodeWord_gteFormat (sf : Bool) (mx v cv : BitVec 2) (lm : Bool) (cmd : BitVec 6) :
    decodeWord (gteFormat sf mx v cv lm cmd) =
      gteCommandOf cmd (gteWord 0x10#5 0#1 sf mx v cv 0#2 lm 0#4 cmd) := by
  rw [gteFormat_eq]
  exact decodeWord_gteWord _ _ _ _ _ _ _ _ _ _ (by decide) (by decide) (by decide) (by decide)

/-! ## Bytes -/

/-- The word of its own bytes. -/
@[simp] theorem wordOfBytes_bytesOfWord (w : Word) :
    wordOfBytes (w.extractLsb' 0 8) (w.extractLsb' 8 8) (w.extractLsb' 16 8) (w.extractLsb' 24 8) = w := by
  apply BitVec.eq_of_getLsbD_eq
  intro i hi
  simp only [wordOfBytes, BitVec.getLsbD_append, BitVec.getLsbD_extractLsb']
  split_ifs with h1 h2 h3
  · simp [h1]
  · simp [h2]; congr 1; omega
  · simp [h3]; congr 1; omega
  · have : i - 8 - 8 - 8 < 8 := by omega
    simp [this]; congr 1; omega

/-- Decoding the bytes of a word, and the rest of the sequence. -/
theorem decode_bytesOfWord (w : Word) (rest : List Byte) :
    decode (bytesOfWord w ++ rest) = .ok (decodeWord w, rest) := by
  simp [bytesOfWord, decode]

end Sys2Proof
end

