-- ==== Sys2Proof/Laws/State.lean ====
section
/-! SUPPORT. What each state update leaves and writes, field by field, so that no proof unfolds a record
update. -/

namespace Sys2Proof.Machine

/-! ## setReg -/

section
variable (s : State) (r : Reg) (v : Word)

@[simp] theorem setReg_cfg : (s.setReg r v).cfg = s.cfg := by unfold State.setReg; split <;> rfl
@[simp] theorem setReg_pc : (s.setReg r v).pc = s.pc := by unfold State.setReg; split <;> rfl
@[simp] theorem setReg_curPC : (s.setReg r v).curPC = s.curPC := by unfold State.setReg; split <;> rfl
@[simp] theorem setReg_word : (s.setReg r v).word = s.word := by unfold State.setReg; split <;> rfl
@[simp] theorem setReg_hi : (s.setReg r v).hi = s.hi := by unfold State.setReg; split <;> rfl
@[simp] theorem setReg_lo : (s.setReg r v).lo = s.lo := by unfold State.setReg; split <;> rfl
@[simp] theorem setReg_branchPending : (s.setReg r v).branchPending = s.branchPending := by unfold State.setReg; split <;> rfl
@[simp] theorem setReg_branchTarget : (s.setReg r v).branchTarget = s.branchTarget := by unfold State.setReg; split <;> rfl
@[simp] theorem setReg_inDelaySlot : (s.setReg r v).inDelaySlot = s.inDelaySlot := by unfold State.setReg; split <;> rfl
@[simp] theorem setReg_cop0 : (s.setReg r v).cop0 = s.cop0 := by unfold State.setReg; split <;> rfl
@[simp] theorem setReg_gte : (s.setReg r v).gte = s.gte := by unfold State.setReg; split <;> rfl
@[simp] theorem setReg_ram : (s.setReg r v).ram = s.ram := by unfold State.setReg; split <;> rfl
@[simp] theorem setReg_rom : (s.setReg r v).rom = s.rom := by unfold State.setReg; split <;> rfl
@[simp] theorem setReg_scratch : (s.setReg r v).scratch = s.scratch := by unfold State.setReg; split <;> rfl
@[simp] theorem setReg_cacheCtrl : (s.setReg r v).cacheCtrl = s.cacheCtrl := by unfold State.setReg; split <;> rfl
@[simp] theorem setReg_diag : (s.setReg r v).diag = s.diag := by unfold State.setReg; split <;> rfl
@[simp] theorem setReg_events : (s.setReg r v).events = s.events := by unfold State.setReg; split <;> rfl
@[simp] theorem setReg_lineStatus : (s.setReg r v).lineStatus = s.lineStatus := by unfold State.setReg; split <;> rfl
@[simp] theorem setReg_inputs : (s.setReg r v).inputs = s.inputs := by unfold State.setReg; split <;> rfl
@[simp] theorem setReg_draws : (s.setReg r v).draws = s.draws := by unfold State.setReg; split <;> rfl
@[simp] theorem setReg_lastLoadDest : (s.setReg r v).lastLoadDest = s.lastLoadDest := by unfold State.setReg; split <;> rfl
@[simp] theorem setReg_lastLwlLwr : (s.setReg r v).lastLwlLwr = s.lastLwlLwr := by unfold State.setReg; split <;> rfl
@[simp] theorem setReg_gteWriteAge : (s.setReg r v).gteWriteAge = s.gteWriteAge := by unfold State.setReg; split <;> rfl
@[simp] theorem setReg_hiloReadAge : (s.setReg r v).hiloReadAge = s.hiloReadAge := by unfold State.setReg; split <;> rfl
@[simp] theorem setReg_getCop0 (q : Reg) : (s.setReg r v).getCop0 q = s.getCop0 q := by simp [State.getCop0]

end

/-! ## setCop0 -/

section
variable (s : State) (n : Reg) (v : Word)

@[simp] theorem setCop0_cfg : (s.setCop0 n v).cfg = s.cfg := rfl
@[simp] theorem setCop0_regs : (s.setCop0 n v).regs = s.regs := rfl
@[simp] theorem setCop0_pc : (s.setCop0 n v).pc = s.pc := rfl
@[simp] theorem setCop0_curPC : (s.setCop0 n v).curPC = s.curPC := rfl
@[simp] theorem setCop0_word : (s.setCop0 n v).word = s.word := rfl
@[simp] theorem setCop0_hi : (s.setCop0 n v).hi = s.hi := rfl
@[simp] theorem setCop0_lo : (s.setCop0 n v).lo = s.lo := rfl
@[simp] theorem setCop0_branchPending : (s.setCop0 n v).branchPending = s.branchPending := rfl
@[simp] theorem setCop0_branchTarget : (s.setCop0 n v).branchTarget = s.branchTarget := rfl
@[simp] theorem setCop0_inDelaySlot : (s.setCop0 n v).inDelaySlot = s.inDelaySlot := rfl
@[simp] theorem setCop0_gte : (s.setCop0 n v).gte = s.gte := rfl
@[simp] theorem setCop0_ram : (s.setCop0 n v).ram = s.ram := rfl
@[simp] theorem setCop0_rom : (s.setCop0 n v).rom = s.rom := rfl
@[simp] theorem setCop0_scratch : (s.setCop0 n v).scratch = s.scratch := rfl
@[simp] theorem setCop0_cacheCtrl : (s.setCop0 n v).cacheCtrl = s.cacheCtrl := rfl
@[simp] theorem setCop0_diag : (s.setCop0 n v).diag = s.diag := rfl
@[simp] theorem setCop0_events : (s.setCop0 n v).events = s.events := rfl
@[simp] theorem setCop0_lineStatus : (s.setCop0 n v).lineStatus = s.lineStatus := rfl
@[simp] theorem setCop0_inputs : (s.setCop0 n v).inputs = s.inputs := rfl
@[simp] theorem setCop0_draws : (s.setCop0 n v).draws = s.draws := rfl
@[simp] theorem setCop0_lastLoadDest : (s.setCop0 n v).lastLoadDest = s.lastLoadDest := rfl
@[simp] theorem setCop0_lastLwlLwr : (s.setCop0 n v).lastLwlLwr = s.lastLwlLwr := rfl
@[simp] theorem setCop0_gteWriteAge : (s.setCop0 n v).gteWriteAge = s.gteWriteAge := rfl
@[simp] theorem setCop0_hiloReadAge : (s.setCop0 n v).hiloReadAge = s.hiloReadAge := rfl
@[simp] theorem setCop0_getReg (q : Reg) : (s.setCop0 n v).getReg q = s.getReg q := by simp [State.getReg]

end

/-! ## record -/

section
variable (s : State) (d : Diagnostic)

@[simp] theorem record_cfg : (s.record d).cfg = s.cfg := rfl
@[simp] theorem record_regs : (s.record d).regs = s.regs := rfl
@[simp] theorem record_pc : (s.record d).pc = s.pc := rfl
@[simp] theorem record_curPC : (s.record d).curPC = s.curPC := rfl
@[simp] theorem record_word : (s.record d).word = s.word := rfl
@[simp] theorem record_hi : (s.record d).hi = s.hi := rfl
@[simp] theorem record_lo : (s.record d).lo = s.lo := rfl
@[simp] theorem record_branchPending : (s.record d).branchPending = s.branchPending := rfl
@[simp] theorem record_branchTarget : (s.record d).branchTarget = s.branchTarget := rfl
@[simp] theorem record_inDelaySlot : (s.record d).inDelaySlot = s.inDelaySlot := rfl
@[simp] theorem record_cop0 : (s.record d).cop0 = s.cop0 := rfl
@[simp] theorem record_gte : (s.record d).gte = s.gte := rfl
@[simp] theorem record_ram : (s.record d).ram = s.ram := rfl
@[simp] theorem record_rom : (s.record d).rom = s.rom := rfl
@[simp] theorem record_scratch : (s.record d).scratch = s.scratch := rfl
@[simp] theorem record_cacheCtrl : (s.record d).cacheCtrl = s.cacheCtrl := rfl
@[simp] theorem record_events : (s.record d).events = s.events := rfl
@[simp] theorem record_lineStatus : (s.record d).lineStatus = s.lineStatus := rfl
@[simp] theorem record_inputs : (s.record d).inputs = s.inputs := rfl
@[simp] theorem record_draws : (s.record d).draws = s.draws := rfl
@[simp] theorem record_lastLoadDest : (s.record d).lastLoadDest = s.lastLoadDest := rfl
@[simp] theorem record_lastLwlLwr : (s.record d).lastLwlLwr = s.lastLwlLwr := rfl
@[simp] theorem record_gteWriteAge : (s.record d).gteWriteAge = s.gteWriteAge := rfl
@[simp] theorem record_hiloReadAge : (s.record d).hiloReadAge = s.hiloReadAge := rfl
@[simp] theorem record_diag : (s.record d).diag = s.diag ++ [d] := rfl
@[simp] theorem record_getReg (q : Reg) : (s.record d).getReg q = s.getReg q := by simp [State.getReg]
@[simp] theorem record_getCop0 (q : Reg) : (s.record d).getCop0 q = s.getCop0 q := by simp [State.getCop0]

end

/-! ## clearHazards -/

section
variable (s : State)

@[simp] theorem clearHazards_cfg : (s.clearHazards).cfg = s.cfg := rfl
@[simp] theorem clearHazards_regs : (s.clearHazards).regs = s.regs := rfl
@[simp] theorem clearHazards_pc : (s.clearHazards).pc = s.pc := rfl
@[simp] theorem clearHazards_curPC : (s.clearHazards).curPC = s.curPC := rfl
@[simp] theorem clearHazards_word : (s.clearHazards).word = s.word := rfl
@[simp] theorem clearHazards_hi : (s.clearHazards).hi = s.hi := rfl
@[simp] theorem clearHazards_lo : (s.clearHazards).lo = s.lo := rfl
@[simp] theorem clearHazards_branchPending : (s.clearHazards).branchPending = s.branchPending := rfl
@[simp] theorem clearHazards_branchTarget : (s.clearHazards).branchTarget = s.branchTarget := rfl
@[simp] theorem clearHazards_inDelaySlot : (s.clearHazards).inDelaySlot = s.inDelaySlot := rfl
@[simp] theorem clearHazards_cop0 : (s.clearHazards).cop0 = s.cop0 := rfl
@[simp] theorem clearHazards_gte : (s.clearHazards).gte = s.gte := rfl
@[simp] theorem clearHazards_ram : (s.clearHazards).ram = s.ram := rfl
@[simp] theorem clearHazards_rom : (s.clearHazards).rom = s.rom := rfl
@[simp] theorem clearHazards_scratch : (s.clearHazards).scratch = s.scratch := rfl
@[simp] theorem clearHazards_cacheCtrl : (s.clearHazards).cacheCtrl = s.cacheCtrl := rfl
@[simp] theorem clearHazards_diag : (s.clearHazards).diag = s.diag := rfl
@[simp] theorem clearHazards_events : (s.clearHazards).events = s.events := rfl
@[simp] theorem clearHazards_lineStatus : (s.clearHazards).lineStatus = s.lineStatus := rfl
@[simp] theorem clearHazards_inputs : (s.clearHazards).inputs = s.inputs := rfl
@[simp] theorem clearHazards_draws : (s.clearHazards).draws = s.draws := rfl
@[simp] theorem clearHazards_lastLoadDest : (s.clearHazards).lastLoadDest = none := rfl
@[simp] theorem clearHazards_lastLwlLwr : (s.clearHazards).lastLwlLwr = none := rfl
@[simp] theorem clearHazards_gteWriteAge : (s.clearHazards).gteWriteAge = none := rfl
@[simp] theorem clearHazards_hiloReadAge : (s.clearHazards).hiloReadAge = none := rfl
@[simp] theorem clearHazards_getReg (q : Reg) : (s.clearHazards).getReg q = s.getReg q := by simp [State.getReg]
@[simp] theorem clearHazards_getCop0 (q : Reg) : (s.clearHazards).getCop0 q = s.getCop0 q := by simp [State.getCop0]

end

/-! ## setBadVAddr -/

section
variable (s : State) (a : Option Word)

@[simp] theorem setBadVAddr_cfg : (s.setBadVAddr a).cfg = s.cfg := by cases a <;> rfl
@[simp] theorem setBadVAddr_regs : (s.setBadVAddr a).regs = s.regs := by cases a <;> rfl
@[simp] theorem setBadVAddr_pc : (s.setBadVAddr a).pc = s.pc := by cases a <;> rfl
@[simp] theorem setBadVAddr_curPC : (s.setBadVAddr a).curPC = s.curPC := by cases a <;> rfl
@[simp] theorem setBadVAddr_word : (s.setBadVAddr a).word = s.word := by cases a <;> rfl
@[simp] theorem setBadVAddr_hi : (s.setBadVAddr a).hi = s.hi := by cases a <;> rfl
@[simp] theorem setBadVAddr_lo : (s.setBadVAddr a).lo = s.lo := by cases a <;> rfl
@[simp] theorem setBadVAddr_branchPending : (s.setBadVAddr a).branchPending = s.branchPending := by cases a <;> rfl
@[simp] theorem setBadVAddr_branchTarget : (s.setBadVAddr a).branchTarget = s.branchTarget := by cases a <;> rfl
@[simp] theorem setBadVAddr_inDelaySlot : (s.setBadVAddr a).inDelaySlot = s.inDelaySlot := by cases a <;> rfl
@[simp] theorem setBadVAddr_gte : (s.setBadVAddr a).gte = s.gte := by cases a <;> rfl
@[simp] theorem setBadVAddr_ram : (s.setBadVAddr a).ram = s.ram := by cases a <;> rfl
@[simp] theorem setBadVAddr_rom : (s.setBadVAddr a).rom = s.rom := by cases a <;> rfl
@[simp] theorem setBadVAddr_scratch : (s.setBadVAddr a).scratch = s.scratch := by cases a <;> rfl
@[simp] theorem setBadVAddr_cacheCtrl : (s.setBadVAddr a).cacheCtrl = s.cacheCtrl := by cases a <;> rfl
@[simp] theorem setBadVAddr_diag : (s.setBadVAddr a).diag = s.diag := by cases a <;> rfl
@[simp] theorem setBadVAddr_events : (s.setBadVAddr a).events = s.events := by cases a <;> rfl
@[simp] theorem setBadVAddr_lineStatus : (s.setBadVAddr a).lineStatus = s.lineStatus := by cases a <;> rfl
@[simp] theorem setBadVAddr_inputs : (s.setBadVAddr a).inputs = s.inputs := by cases a <;> rfl
@[simp] theorem setBadVAddr_draws : (s.setBadVAddr a).draws = s.draws := by cases a <;> rfl
@[simp] theorem setBadVAddr_lastLoadDest : (s.setBadVAddr a).lastLoadDest = s.lastLoadDest := by cases a <;> rfl
@[simp] theorem setBadVAddr_lastLwlLwr : (s.setBadVAddr a).lastLwlLwr = s.lastLwlLwr := by cases a <;> rfl
@[simp] theorem setBadVAddr_gteWriteAge : (s.setBadVAddr a).gteWriteAge = s.gteWriteAge := by cases a <;> rfl
@[simp] theorem setBadVAddr_hiloReadAge : (s.setBadVAddr a).hiloReadAge = s.hiloReadAge := by cases a <;> rfl
@[simp] theorem setBadVAddr_getReg (q : Reg) : (s.setBadVAddr a).getReg q = s.getReg q := by simp [State.getReg]

end

/-! ## enter -/

section
variable (s : State) (c : ExcCode) (a : Option Word)

@[simp] theorem enter_cfg : (s.enter c a).cfg = s.cfg := by simp [State.enter]
@[simp] theorem enter_regs : (s.enter c a).regs = s.regs := by simp [State.enter]
@[simp] theorem enter_curPC : (s.enter c a).curPC = s.curPC := by simp [State.enter]
@[simp] theorem enter_word : (s.enter c a).word = s.word := by simp [State.enter]
@[simp] theorem enter_hi : (s.enter c a).hi = s.hi := by simp [State.enter]
@[simp] theorem enter_lo : (s.enter c a).lo = s.lo := by simp [State.enter]
@[simp] theorem enter_branchTarget : (s.enter c a).branchTarget = s.branchTarget := by simp [State.enter]
@[simp] theorem enter_inDelaySlot : (s.enter c a).inDelaySlot = s.inDelaySlot := by simp [State.enter]
@[simp] theorem enter_gte : (s.enter c a).gte = s.gte := by simp [State.enter]
@[simp] theorem enter_ram : (s.enter c a).ram = s.ram := by simp [State.enter]
@[simp] theorem enter_rom : (s.enter c a).rom = s.rom := by simp [State.enter]
@[simp] theorem enter_scratch : (s.enter c a).scratch = s.scratch := by simp [State.enter]
@[simp] theorem enter_cacheCtrl : (s.enter c a).cacheCtrl = s.cacheCtrl := by simp [State.enter]
@[simp] theorem enter_diag : (s.enter c a).diag = s.diag := by simp [State.enter]
@[simp] theorem enter_events : (s.enter c a).events = s.events := by simp [State.enter]
@[simp] theorem enter_lineStatus : (s.enter c a).lineStatus = s.lineStatus := by simp [State.enter]
@[simp] theorem enter_inputs : (s.enter c a).inputs = s.inputs := by simp [State.enter]
@[simp] theorem enter_draws : (s.enter c a).draws = s.draws := by simp [State.enter]
@[simp] theorem enter_pc : (s.enter c a).pc = exceptionVector s.bev := by simp [State.enter]
@[simp] theorem enter_branchPending : (s.enter c a).branchPending = false := by simp [State.enter]
@[simp] theorem enter_lastLoadDest : (s.enter c a).lastLoadDest = none := by simp [State.enter]
@[simp] theorem enter_lastLwlLwr : (s.enter c a).lastLwlLwr = none := by simp [State.enter]
@[simp] theorem enter_gteWriteAge : (s.enter c a).gteWriteAge = none := by simp [State.enter]
@[simp] theorem enter_hiloReadAge : (s.enter c a).hiloReadAge = none := by simp [State.enter]
@[simp] theorem enter_getReg (q : Reg) : (s.enter c a).getReg q = s.getReg q := by simp [State.getReg]

end

/-! ## leave -/

section
variable (s : State)

@[simp] theorem leave_cfg : (s.leave).cfg = s.cfg := rfl
@[simp] theorem leave_regs : (s.leave).regs = s.regs := rfl
@[simp] theorem leave_pc : (s.leave).pc = s.pc := rfl
@[simp] theorem leave_curPC : (s.leave).curPC = s.curPC := rfl
@[simp] theorem leave_word : (s.leave).word = s.word := rfl
@[simp] theorem leave_hi : (s.leave).hi = s.hi := rfl
@[simp] theorem leave_lo : (s.leave).lo = s.lo := rfl
@[simp] theorem leave_branchPending : (s.leave).branchPending = s.branchPending := rfl
@[simp] theorem leave_branchTarget : (s.leave).branchTarget = s.branchTarget := rfl
@[simp] theorem leave_inDelaySlot : (s.leave).inDelaySlot = s.inDelaySlot := rfl
@[simp] theorem leave_gte : (s.leave).gte = s.gte := rfl
@[simp] theorem leave_ram : (s.leave).ram = s.ram := rfl
@[simp] theorem leave_rom : (s.leave).rom = s.rom := rfl
@[simp] theorem leave_scratch : (s.leave).scratch = s.scratch := rfl
@[simp] theorem leave_cacheCtrl : (s.leave).cacheCtrl = s.cacheCtrl := rfl
@[simp] theorem leave_diag : (s.leave).diag = s.diag := rfl
@[simp] theorem leave_events : (s.leave).events = s.events := rfl
@[simp] theorem leave_lineStatus : (s.leave).lineStatus = s.lineStatus := rfl
@[simp] theorem leave_inputs : (s.leave).inputs = s.inputs := rfl
@[simp] theorem leave_draws : (s.leave).draws = s.draws := rfl
@[simp] theorem leave_lastLoadDest : (s.leave).lastLoadDest = s.lastLoadDest := rfl
@[simp] theorem leave_lastLwlLwr : (s.leave).lastLwlLwr = s.lastLwlLwr := rfl
@[simp] theorem leave_gteWriteAge : (s.leave).gteWriteAge = s.gteWriteAge := rfl
@[simp] theorem leave_hiloReadAge : (s.leave).hiloReadAge = s.hiloReadAge := rfl
@[simp] theorem leave_getReg (q : Reg) : (s.leave).getReg q = s.getReg q := by simp [State.getReg]

end

/-! ## takeBranch -/

section
variable (s : State) (a : Word)

@[simp] theorem takeBranch_cfg : (s.takeBranch a).cfg = s.cfg := rfl
@[simp] theorem takeBranch_regs : (s.takeBranch a).regs = s.regs := rfl
@[simp] theorem takeBranch_pc : (s.takeBranch a).pc = s.pc := rfl
@[simp] theorem takeBranch_curPC : (s.takeBranch a).curPC = s.curPC := rfl
@[simp] theorem takeBranch_word : (s.takeBranch a).word = s.word := rfl
@[simp] theorem takeBranch_hi : (s.takeBranch a).hi = s.hi := rfl
@[simp] theorem takeBranch_lo : (s.takeBranch a).lo = s.lo := rfl
@[simp] theorem takeBranch_inDelaySlot : (s.takeBranch a).inDelaySlot = s.inDelaySlot := rfl
@[simp] theorem takeBranch_cop0 : (s.takeBranch a).cop0 = s.cop0 := rfl
@[simp] theorem takeBranch_gte : (s.takeBranch a).gte = s.gte := rfl
@[simp] theorem takeBranch_ram : (s.takeBranch a).ram = s.ram := rfl
@[simp] theorem takeBranch_rom : (s.takeBranch a).rom = s.rom := rfl
@[simp] theorem takeBranch_scratch : (s.takeBranch a).scratch = s.scratch := rfl
@[simp] theorem takeBranch_cacheCtrl : (s.takeBranch a).cacheCtrl = s.cacheCtrl := rfl
@[simp] theorem takeBranch_diag : (s.takeBranch a).diag = s.diag := rfl
@[simp] theorem takeBranch_events : (s.takeBranch a).events = s.events := rfl
@[simp] theorem takeBranch_lineStatus : (s.takeBranch a).lineStatus = s.lineStatus := rfl
@[simp] theorem takeBranch_inputs : (s.takeBranch a).inputs = s.inputs := rfl
@[simp] theorem takeBranch_draws : (s.takeBranch a).draws = s.draws := rfl
@[simp] theorem takeBranch_lastLoadDest : (s.takeBranch a).lastLoadDest = s.lastLoadDest := rfl
@[simp] theorem takeBranch_lastLwlLwr : (s.takeBranch a).lastLwlLwr = s.lastLwlLwr := rfl
@[simp] theorem takeBranch_gteWriteAge : (s.takeBranch a).gteWriteAge = s.gteWriteAge := rfl
@[simp] theorem takeBranch_hiloReadAge : (s.takeBranch a).hiloReadAge = s.hiloReadAge := rfl
@[simp] theorem takeBranch_branchTarget : (s.takeBranch a).branchTarget = a := rfl
@[simp] theorem takeBranch_branchPending : (s.takeBranch a).branchPending = true := rfl
@[simp] theorem takeBranch_getReg (q : Reg) : (s.takeBranch a).getReg q = s.getReg q := by simp [State.getReg]
@[simp] theorem takeBranch_getCop0 (q : Reg) : (s.takeBranch a).getCop0 q = s.getCop0 q := by simp [State.getCop0]

end

/-! ## branchIf -/

section
variable (s : State) (c : Bool) (imm : BitVec 16)

@[simp] theorem branchIf_cfg : (s.branchIf c imm).cfg = s.cfg := by cases c <;> rfl
@[simp] theorem branchIf_regs : (s.branchIf c imm).regs = s.regs := by cases c <;> rfl
@[simp] theorem branchIf_pc : (s.branchIf c imm).pc = s.pc := by cases c <;> rfl
@[simp] theorem branchIf_curPC : (s.branchIf c imm).curPC = s.curPC := by cases c <;> rfl
@[simp] theorem branchIf_word : (s.branchIf c imm).word = s.word := by cases c <;> rfl
@[simp] theorem branchIf_hi : (s.branchIf c imm).hi = s.hi := by cases c <;> rfl
@[simp] theorem branchIf_lo : (s.branchIf c imm).lo = s.lo := by cases c <;> rfl
@[simp] theorem branchIf_inDelaySlot : (s.branchIf c imm).inDelaySlot = s.inDelaySlot := by cases c <;> rfl
@[simp] theorem branchIf_cop0 : (s.branchIf c imm).cop0 = s.cop0 := by cases c <;> rfl
@[simp] theorem branchIf_gte : (s.branchIf c imm).gte = s.gte := by cases c <;> rfl
@[simp] theorem branchIf_ram : (s.branchIf c imm).ram = s.ram := by cases c <;> rfl
@[simp] theorem branchIf_rom : (s.branchIf c imm).rom = s.rom := by cases c <;> rfl
@[simp] theorem branchIf_scratch : (s.branchIf c imm).scratch = s.scratch := by cases c <;> rfl
@[simp] theorem branchIf_cacheCtrl : (s.branchIf c imm).cacheCtrl = s.cacheCtrl := by cases c <;> rfl
@[simp] theorem branchIf_diag : (s.branchIf c imm).diag = s.diag := by cases c <;> rfl
@[simp] theorem branchIf_events : (s.branchIf c imm).events = s.events := by cases c <;> rfl
@[simp] theorem branchIf_lineStatus : (s.branchIf c imm).lineStatus = s.lineStatus := by cases c <;> rfl
@[simp] theorem branchIf_inputs : (s.branchIf c imm).inputs = s.inputs := by cases c <;> rfl
@[simp] theorem branchIf_draws : (s.branchIf c imm).draws = s.draws := by cases c <;> rfl
@[simp] theorem branchIf_lastLoadDest : (s.branchIf c imm).lastLoadDest = s.lastLoadDest := by cases c <;> rfl
@[simp] theorem branchIf_lastLwlLwr : (s.branchIf c imm).lastLwlLwr = s.lastLwlLwr := by cases c <;> rfl
@[simp] theorem branchIf_gteWriteAge : (s.branchIf c imm).gteWriteAge = s.gteWriteAge := by cases c <;> rfl
@[simp] theorem branchIf_hiloReadAge : (s.branchIf c imm).hiloReadAge = s.hiloReadAge := by cases c <;> rfl
@[simp] theorem branchIf_branchTarget : (s.branchIf c imm).branchTarget = if c then branchTo s.pc imm else s.branchTarget := by cases c <;> rfl
@[simp] theorem branchIf_branchPending : (s.branchIf c imm).branchPending = (c || s.branchPending) := by cases c <;> rfl
@[simp] theorem branchIf_getReg (q : Reg) : (s.branchIf c imm).getReg q = s.getReg q := by simp [State.getReg]
@[simp] theorem branchIf_getCop0 (q : Reg) : (s.branchIf c imm).getCop0 q = s.getCop0 q := by simp [State.getCop0]

end

/-! ## setHiLo -/

section
variable (s : State) (h l : Word)

@[simp] theorem setHiLo_cfg : (s.setHiLo h l).cfg = s.cfg := rfl
@[simp] theorem setHiLo_regs : (s.setHiLo h l).regs = s.regs := rfl
@[simp] theorem setHiLo_pc : (s.setHiLo h l).pc = s.pc := rfl
@[simp] theorem setHiLo_curPC : (s.setHiLo h l).curPC = s.curPC := rfl
@[simp] theorem setHiLo_word : (s.setHiLo h l).word = s.word := rfl
@[simp] theorem setHiLo_branchPending : (s.setHiLo h l).branchPending = s.branchPending := rfl
@[simp] theorem setHiLo_branchTarget : (s.setHiLo h l).branchTarget = s.branchTarget := rfl
@[simp] theorem setHiLo_inDelaySlot : (s.setHiLo h l).inDelaySlot = s.inDelaySlot := rfl
@[simp] theorem setHiLo_cop0 : (s.setHiLo h l).cop0 = s.cop0 := rfl
@[simp] theorem setHiLo_gte : (s.setHiLo h l).gte = s.gte := rfl
@[simp] theorem setHiLo_ram : (s.setHiLo h l).ram = s.ram := rfl
@[simp] theorem setHiLo_rom : (s.setHiLo h l).rom = s.rom := rfl
@[simp] theorem setHiLo_scratch : (s.setHiLo h l).scratch = s.scratch := rfl
@[simp] theorem setHiLo_cacheCtrl : (s.setHiLo h l).cacheCtrl = s.cacheCtrl := rfl
@[simp] theorem setHiLo_diag : (s.setHiLo h l).diag = s.diag := rfl
@[simp] theorem setHiLo_events : (s.setHiLo h l).events = s.events := rfl
@[simp] theorem setHiLo_lineStatus : (s.setHiLo h l).lineStatus = s.lineStatus := rfl
@[simp] theorem setHiLo_inputs : (s.setHiLo h l).inputs = s.inputs := rfl
@[simp] theorem setHiLo_draws : (s.setHiLo h l).draws = s.draws := rfl
@[simp] theorem setHiLo_lastLoadDest : (s.setHiLo h l).lastLoadDest = s.lastLoadDest := rfl
@[simp] theorem setHiLo_lastLwlLwr : (s.setHiLo h l).lastLwlLwr = s.lastLwlLwr := rfl
@[simp] theorem setHiLo_gteWriteAge : (s.setHiLo h l).gteWriteAge = s.gteWriteAge := rfl
@[simp] theorem setHiLo_hiloReadAge : (s.setHiLo h l).hiloReadAge = s.hiloReadAge := rfl
@[simp] theorem setHiLo_hi : (s.setHiLo h l).hi = h := rfl
@[simp] theorem setHiLo_lo : (s.setHiLo h l).lo = l := rfl
@[simp] theorem setHiLo_getReg (q : Reg) : (s.setHiLo h l).getReg q = s.getReg q := by simp [State.getReg]
@[simp] theorem setHiLo_getCop0 (q : Reg) : (s.setHiLo h l).getCop0 q = s.getCop0 q := by simp [State.getCop0]

end

/-! ## gteWriteD -/

section
variable (s : State) (n : Reg) (v : Word)

@[simp] theorem gteWriteD_cfg : (s.gteWriteD n v).cfg = s.cfg := rfl
@[simp] theorem gteWriteD_regs : (s.gteWriteD n v).regs = s.regs := rfl
@[simp] theorem gteWriteD_pc : (s.gteWriteD n v).pc = s.pc := rfl
@[simp] theorem gteWriteD_curPC : (s.gteWriteD n v).curPC = s.curPC := rfl
@[simp] theorem gteWriteD_word : (s.gteWriteD n v).word = s.word := rfl
@[simp] theorem gteWriteD_hi : (s.gteWriteD n v).hi = s.hi := rfl
@[simp] theorem gteWriteD_lo : (s.gteWriteD n v).lo = s.lo := rfl
@[simp] theorem gteWriteD_branchPending : (s.gteWriteD n v).branchPending = s.branchPending := rfl
@[simp] theorem gteWriteD_branchTarget : (s.gteWriteD n v).branchTarget = s.branchTarget := rfl
@[simp] theorem gteWriteD_inDelaySlot : (s.gteWriteD n v).inDelaySlot = s.inDelaySlot := rfl
@[simp] theorem gteWriteD_cop0 : (s.gteWriteD n v).cop0 = s.cop0 := rfl
@[simp] theorem gteWriteD_ram : (s.gteWriteD n v).ram = s.ram := rfl
@[simp] theorem gteWriteD_rom : (s.gteWriteD n v).rom = s.rom := rfl
@[simp] theorem gteWriteD_scratch : (s.gteWriteD n v).scratch = s.scratch := rfl
@[simp] theorem gteWriteD_cacheCtrl : (s.gteWriteD n v).cacheCtrl = s.cacheCtrl := rfl
@[simp] theorem gteWriteD_diag : (s.gteWriteD n v).diag = s.diag := rfl
@[simp] theorem gteWriteD_events : (s.gteWriteD n v).events = s.events := rfl
@[simp] theorem gteWriteD_lineStatus : (s.gteWriteD n v).lineStatus = s.lineStatus := rfl
@[simp] theorem gteWriteD_inputs : (s.gteWriteD n v).inputs = s.inputs := rfl
@[simp] theorem gteWriteD_draws : (s.gteWriteD n v).draws = s.draws := rfl
@[simp] theorem gteWriteD_lastLoadDest : (s.gteWriteD n v).lastLoadDest = s.lastLoadDest := rfl
@[simp] theorem gteWriteD_lastLwlLwr : (s.gteWriteD n v).lastLwlLwr = s.lastLwlLwr := rfl
@[simp] theorem gteWriteD_gteWriteAge : (s.gteWriteD n v).gteWriteAge = s.gteWriteAge := rfl
@[simp] theorem gteWriteD_hiloReadAge : (s.gteWriteD n v).hiloReadAge = s.hiloReadAge := rfl
@[simp] theorem gteWriteD_gte : (s.gteWriteD n v).gte = s.gte.writeD s.cfg.gteMoveMode n v := rfl
@[simp] theorem gteWriteD_getReg (q : Reg) : (s.gteWriteD n v).getReg q = s.getReg q := by simp [State.getReg]
@[simp] theorem gteWriteD_getCop0 (q : Reg) : (s.gteWriteD n v).getCop0 q = s.getCop0 q := by simp [State.getCop0]

end

/-! ## gteWriteC -/

section
variable (s : State) (n : Reg) (v : Word)

@[simp] theorem gteWriteC_cfg : (s.gteWriteC n v).cfg = s.cfg := rfl
@[simp] theorem gteWriteC_regs : (s.gteWriteC n v).regs = s.regs := rfl
@[simp] theorem gteWriteC_pc : (s.gteWriteC n v).pc = s.pc := rfl
@[simp] theorem gteWriteC_curPC : (s.gteWriteC n v).curPC = s.curPC := rfl
@[simp] theorem gteWriteC_word : (s.gteWriteC n v).word = s.word := rfl
@[simp] theorem gteWriteC_hi : (s.gteWriteC n v).hi = s.hi := rfl
@[simp] theorem gteWriteC_lo : (s.gteWriteC n v).lo = s.lo := rfl
@[simp] theorem gteWriteC_branchPending : (s.gteWriteC n v).branchPending = s.branchPending := rfl
@[simp] theorem gteWriteC_branchTarget : (s.gteWriteC n v).branchTarget = s.branchTarget := rfl
@[simp] theorem gteWriteC_inDelaySlot : (s.gteWriteC n v).inDelaySlot = s.inDelaySlot := rfl
@[simp] theorem gteWriteC_cop0 : (s.gteWriteC n v).cop0 = s.cop0 := rfl
@[simp] theorem gteWriteC_ram : (s.gteWriteC n v).ram = s.ram := rfl
@[simp] theorem gteWriteC_rom : (s.gteWriteC n v).rom = s.rom := rfl
@[simp] theorem gteWriteC_scratch : (s.gteWriteC n v).scratch = s.scratch := rfl
@[simp] theorem gteWriteC_cacheCtrl : (s.gteWriteC n v).cacheCtrl = s.cacheCtrl := rfl
@[simp] theorem gteWriteC_diag : (s.gteWriteC n v).diag = s.diag := rfl
@[simp] theorem gteWriteC_events : (s.gteWriteC n v).events = s.events := rfl
@[simp] theorem gteWriteC_lineStatus : (s.gteWriteC n v).lineStatus = s.lineStatus := rfl
@[simp] theorem gteWriteC_inputs : (s.gteWriteC n v).inputs = s.inputs := rfl
@[simp] theorem gteWriteC_draws : (s.gteWriteC n v).draws = s.draws := rfl
@[simp] theorem gteWriteC_lastLoadDest : (s.gteWriteC n v).lastLoadDest = s.lastLoadDest := rfl
@[simp] theorem gteWriteC_lastLwlLwr : (s.gteWriteC n v).lastLwlLwr = s.lastLwlLwr := rfl
@[simp] theorem gteWriteC_gteWriteAge : (s.gteWriteC n v).gteWriteAge = s.gteWriteAge := rfl
@[simp] theorem gteWriteC_hiloReadAge : (s.gteWriteC n v).hiloReadAge = s.hiloReadAge := rfl
@[simp] theorem gteWriteC_gte : (s.gteWriteC n v).gte = s.gte.writeC s.cfg.gteMoveMode n v := rfl
@[simp] theorem gteWriteC_getReg (q : Reg) : (s.gteWriteC n v).getReg q = s.getReg q := by simp [State.getReg]
@[simp] theorem gteWriteC_getCop0 (q : Reg) : (s.gteWriteC n v).getCop0 q = s.getCop0 q := by simp [State.getCop0]

end

/-! ## noteHazards -/

section
variable (s : State) (i : Instr)

@[simp] theorem noteHazards_cfg : (s.noteHazards i).cfg = s.cfg := by unfold State.noteHazards; cases s.cfg.hazardPolicy <;> rfl
@[simp] theorem noteHazards_regs : (s.noteHazards i).regs = s.regs := by unfold State.noteHazards; cases s.cfg.hazardPolicy <;> rfl
@[simp] theorem noteHazards_pc : (s.noteHazards i).pc = s.pc := by unfold State.noteHazards; cases s.cfg.hazardPolicy <;> rfl
@[simp] theorem noteHazards_curPC : (s.noteHazards i).curPC = s.curPC := by unfold State.noteHazards; cases s.cfg.hazardPolicy <;> rfl
@[simp] theorem noteHazards_word : (s.noteHazards i).word = s.word := by unfold State.noteHazards; cases s.cfg.hazardPolicy <;> rfl
@[simp] theorem noteHazards_hi : (s.noteHazards i).hi = s.hi := by unfold State.noteHazards; cases s.cfg.hazardPolicy <;> rfl
@[simp] theorem noteHazards_lo : (s.noteHazards i).lo = s.lo := by unfold State.noteHazards; cases s.cfg.hazardPolicy <;> rfl
@[simp] theorem noteHazards_branchPending : (s.noteHazards i).branchPending = s.branchPending := by unfold State.noteHazards; cases s.cfg.hazardPolicy <;> rfl
@[simp] theorem noteHazards_branchTarget : (s.noteHazards i).branchTarget = s.branchTarget := by unfold State.noteHazards; cases s.cfg.hazardPolicy <;> rfl
@[simp] theorem noteHazards_inDelaySlot : (s.noteHazards i).inDelaySlot = s.inDelaySlot := by unfold State.noteHazards; cases s.cfg.hazardPolicy <;> rfl
@[simp] theorem noteHazards_cop0 : (s.noteHazards i).cop0 = s.cop0 := by unfold State.noteHazards; cases s.cfg.hazardPolicy <;> rfl
@[simp] theorem noteHazards_gte : (s.noteHazards i).gte = s.gte := by unfold State.noteHazards; cases s.cfg.hazardPolicy <;> rfl
@[simp] theorem noteHazards_ram : (s.noteHazards i).ram = s.ram := by unfold State.noteHazards; cases s.cfg.hazardPolicy <;> rfl
@[simp] theorem noteHazards_rom : (s.noteHazards i).rom = s.rom := by unfold State.noteHazards; cases s.cfg.hazardPolicy <;> rfl
@[simp] theorem noteHazards_scratch : (s.noteHazards i).scratch = s.scratch := by unfold State.noteHazards; cases s.cfg.hazardPolicy <;> rfl
@[simp] theorem noteHazards_cacheCtrl : (s.noteHazards i).cacheCtrl = s.cacheCtrl := by unfold State.noteHazards; cases s.cfg.hazardPolicy <;> rfl
@[simp] theorem noteHazards_diag : (s.noteHazards i).diag = s.diag := by unfold State.noteHazards; cases s.cfg.hazardPolicy <;> rfl
@[simp] theorem noteHazards_events : (s.noteHazards i).events = s.events := by unfold State.noteHazards; cases s.cfg.hazardPolicy <;> rfl
@[simp] theorem noteHazards_lineStatus : (s.noteHazards i).lineStatus = s.lineStatus := by unfold State.noteHazards; cases s.cfg.hazardPolicy <;> rfl
@[simp] theorem noteHazards_inputs : (s.noteHazards i).inputs = s.inputs := by unfold State.noteHazards; cases s.cfg.hazardPolicy <;> rfl
@[simp] theorem noteHazards_draws : (s.noteHazards i).draws = s.draws := by unfold State.noteHazards; cases s.cfg.hazardPolicy <;> rfl
@[simp] theorem noteHazards_getReg (q : Reg) : (s.noteHazards i).getReg q = s.getReg q := by simp [State.getReg]
@[simp] theorem noteHazards_getCop0 (q : Reg) : (s.noteHazards i).getCop0 q = s.getCop0 q := by simp [State.getCop0]

end

/-! ## sample -/

section
variable (s : State)

@[simp] theorem sample_cfg : (s.sample).cfg = s.cfg := by unfold State.sample; split <;> rfl
@[simp] theorem sample_regs : (s.sample).regs = s.regs := by unfold State.sample; split <;> rfl
@[simp] theorem sample_pc : (s.sample).pc = s.pc := by unfold State.sample; split <;> rfl
@[simp] theorem sample_curPC : (s.sample).curPC = s.curPC := by unfold State.sample; split <;> rfl
@[simp] theorem sample_word : (s.sample).word = s.word := by unfold State.sample; split <;> rfl
@[simp] theorem sample_hi : (s.sample).hi = s.hi := by unfold State.sample; split <;> rfl
@[simp] theorem sample_lo : (s.sample).lo = s.lo := by unfold State.sample; split <;> rfl
@[simp] theorem sample_branchPending : (s.sample).branchPending = s.branchPending := by unfold State.sample; split <;> rfl
@[simp] theorem sample_branchTarget : (s.sample).branchTarget = s.branchTarget := by unfold State.sample; split <;> rfl
@[simp] theorem sample_inDelaySlot : (s.sample).inDelaySlot = s.inDelaySlot := by unfold State.sample; split <;> rfl
@[simp] theorem sample_cop0 : (s.sample).cop0 = s.cop0 := by unfold State.sample; split <;> rfl
@[simp] theorem sample_gte : (s.sample).gte = s.gte := by unfold State.sample; split <;> rfl
@[simp] theorem sample_ram : (s.sample).ram = s.ram := by unfold State.sample; split <;> rfl
@[simp] theorem sample_rom : (s.sample).rom = s.rom := by unfold State.sample; split <;> rfl
@[simp] theorem sample_scratch : (s.sample).scratch = s.scratch := by unfold State.sample; split <;> rfl
@[simp] theorem sample_cacheCtrl : (s.sample).cacheCtrl = s.cacheCtrl := by unfold State.sample; split <;> rfl
@[simp] theorem sample_diag : (s.sample).diag = s.diag := by unfold State.sample; split <;> rfl
@[simp] theorem sample_events : (s.sample).events = s.events := by unfold State.sample; split <;> rfl
@[simp] theorem sample_draws : (s.sample).draws = s.draws := by unfold State.sample; split <;> rfl
@[simp] theorem sample_lastLoadDest : (s.sample).lastLoadDest = s.lastLoadDest := by unfold State.sample; split <;> rfl
@[simp] theorem sample_lastLwlLwr : (s.sample).lastLwlLwr = s.lastLwlLwr := by unfold State.sample; split <;> rfl
@[simp] theorem sample_gteWriteAge : (s.sample).gteWriteAge = s.gteWriteAge := by unfold State.sample; split <;> rfl
@[simp] theorem sample_hiloReadAge : (s.sample).hiloReadAge = s.hiloReadAge := by unfold State.sample; split <;> rfl
@[simp] theorem sample_getReg (q : Reg) : (s.sample).getReg q = s.getReg q := by simp [State.getReg]
@[simp] theorem sample_getCop0 (q : Reg) : (s.sample).getCop0 q = s.getCop0 q := by simp [State.getCop0]

end

/-! ## updateIp2 -/

section
variable (s : State)

@[simp] theorem updateIp2_cfg : (s.updateIp2).cfg = s.cfg := rfl
@[simp] theorem updateIp2_regs : (s.updateIp2).regs = s.regs := rfl
@[simp] theorem updateIp2_pc : (s.updateIp2).pc = s.pc := rfl
@[simp] theorem updateIp2_curPC : (s.updateIp2).curPC = s.curPC := rfl
@[simp] theorem updateIp2_word : (s.updateIp2).word = s.word := rfl
@[simp] theorem updateIp2_hi : (s.updateIp2).hi = s.hi := rfl
@[simp] theorem updateIp2_lo : (s.updateIp2).lo = s.lo := rfl
@[simp] theorem updateIp2_branchPending : (s.updateIp2).branchPending = s.branchPending := rfl
@[simp] theorem updateIp2_branchTarget : (s.updateIp2).branchTarget = s.branchTarget := rfl
@[simp] theorem updateIp2_inDelaySlot : (s.updateIp2).inDelaySlot = s.inDelaySlot := rfl
@[simp] theorem updateIp2_gte : (s.updateIp2).gte = s.gte := rfl
@[simp] theorem updateIp2_ram : (s.updateIp2).ram = s.ram := rfl
@[simp] theorem updateIp2_rom : (s.updateIp2).rom = s.rom := rfl
@[simp] theorem updateIp2_scratch : (s.updateIp2).scratch = s.scratch := rfl
@[simp] theorem updateIp2_cacheCtrl : (s.updateIp2).cacheCtrl = s.cacheCtrl := rfl
@[simp] theorem updateIp2_diag : (s.updateIp2).diag = s.diag := rfl
@[simp] theorem updateIp2_events : (s.updateIp2).events = s.events := rfl
@[simp] theorem updateIp2_lineStatus : (s.updateIp2).lineStatus = s.lineStatus := rfl
@[simp] theorem updateIp2_inputs : (s.updateIp2).inputs = s.inputs := rfl
@[simp] theorem updateIp2_draws : (s.updateIp2).draws = s.draws := rfl
@[simp] theorem updateIp2_lastLoadDest : (s.updateIp2).lastLoadDest = s.lastLoadDest := rfl
@[simp] theorem updateIp2_lastLwlLwr : (s.updateIp2).lastLwlLwr = s.lastLwlLwr := rfl
@[simp] theorem updateIp2_gteWriteAge : (s.updateIp2).gteWriteAge = s.gteWriteAge := rfl
@[simp] theorem updateIp2_hiloReadAge : (s.updateIp2).hiloReadAge = s.hiloReadAge := rfl
@[simp] theorem updateIp2_getReg (q : Reg) : (s.updateIp2).getReg q = s.getReg q := by simp [State.getReg]

end

/-! ## advance -/

section
variable (s : State) (w : Word)

@[simp] theorem advance_cfg : (s.advance w).cfg = s.cfg := rfl
@[simp] theorem advance_regs : (s.advance w).regs = s.regs := rfl
@[simp] theorem advance_hi : (s.advance w).hi = s.hi := rfl
@[simp] theorem advance_lo : (s.advance w).lo = s.lo := rfl
@[simp] theorem advance_branchTarget : (s.advance w).branchTarget = s.branchTarget := rfl
@[simp] theorem advance_cop0 : (s.advance w).cop0 = s.cop0 := rfl
@[simp] theorem advance_gte : (s.advance w).gte = s.gte := rfl
@[simp] theorem advance_ram : (s.advance w).ram = s.ram := rfl
@[simp] theorem advance_rom : (s.advance w).rom = s.rom := rfl
@[simp] theorem advance_scratch : (s.advance w).scratch = s.scratch := rfl
@[simp] theorem advance_cacheCtrl : (s.advance w).cacheCtrl = s.cacheCtrl := rfl
@[simp] theorem advance_diag : (s.advance w).diag = s.diag := rfl
@[simp] theorem advance_events : (s.advance w).events = s.events := rfl
@[simp] theorem advance_lineStatus : (s.advance w).lineStatus = s.lineStatus := rfl
@[simp] theorem advance_inputs : (s.advance w).inputs = s.inputs := rfl
@[simp] theorem advance_draws : (s.advance w).draws = s.draws := rfl
@[simp] theorem advance_lastLoadDest : (s.advance w).lastLoadDest = s.lastLoadDest := rfl
@[simp] theorem advance_lastLwlLwr : (s.advance w).lastLwlLwr = s.lastLwlLwr := rfl
@[simp] theorem advance_gteWriteAge : (s.advance w).gteWriteAge = s.gteWriteAge := rfl
@[simp] theorem advance_hiloReadAge : (s.advance w).hiloReadAge = s.hiloReadAge := rfl
@[simp] theorem advance_curPC : (s.advance w).curPC = s.pc := rfl
@[simp] theorem advance_word : (s.advance w).word = w := rfl
@[simp] theorem advance_inDelaySlot : (s.advance w).inDelaySlot = s.branchPending := rfl
@[simp] theorem advance_pc : (s.advance w).pc = if s.branchPending then s.branchTarget else s.pc + 4 := rfl
@[simp] theorem advance_branchPending : (s.advance w).branchPending = false := rfl
@[simp] theorem advance_getReg (q : Reg) : (s.advance w).getReg q = s.getReg q := by simp [State.getReg]
@[simp] theorem advance_getCop0 (q : Reg) : (s.advance w).getCop0 q = s.getCop0 q := by simp [State.getCop0]

end

/-! ## deviceRead -/

section
variable (s : State) (p : Peripheral) (a : Word) (n : Width)

@[simp] theorem deviceRead_cfg : (deviceRead p a n s).2.cfg = s.cfg := rfl
@[simp] theorem deviceRead_regs : (deviceRead p a n s).2.regs = s.regs := rfl
@[simp] theorem deviceRead_pc : (deviceRead p a n s).2.pc = s.pc := rfl
@[simp] theorem deviceRead_curPC : (deviceRead p a n s).2.curPC = s.curPC := rfl
@[simp] theorem deviceRead_word : (deviceRead p a n s).2.word = s.word := rfl
@[simp] theorem deviceRead_hi : (deviceRead p a n s).2.hi = s.hi := rfl
@[simp] theorem deviceRead_lo : (deviceRead p a n s).2.lo = s.lo := rfl
@[simp] theorem deviceRead_branchPending : (deviceRead p a n s).2.branchPending = s.branchPending := rfl
@[simp] theorem deviceRead_branchTarget : (deviceRead p a n s).2.branchTarget = s.branchTarget := rfl
@[simp] theorem deviceRead_inDelaySlot : (deviceRead p a n s).2.inDelaySlot = s.inDelaySlot := rfl
@[simp] theorem deviceRead_cop0 : (deviceRead p a n s).2.cop0 = s.cop0 := rfl
@[simp] theorem deviceRead_gte : (deviceRead p a n s).2.gte = s.gte := rfl
@[simp] theorem deviceRead_ram : (deviceRead p a n s).2.ram = s.ram := rfl
@[simp] theorem deviceRead_rom : (deviceRead p a n s).2.rom = s.rom := rfl
@[simp] theorem deviceRead_scratch : (deviceRead p a n s).2.scratch = s.scratch := rfl
@[simp] theorem deviceRead_cacheCtrl : (deviceRead p a n s).2.cacheCtrl = s.cacheCtrl := rfl
@[simp] theorem deviceRead_diag : (deviceRead p a n s).2.diag = s.diag := rfl
@[simp] theorem deviceRead_lineStatus : (deviceRead p a n s).2.lineStatus = s.lineStatus := rfl
@[simp] theorem deviceRead_inputs : (deviceRead p a n s).2.inputs = s.inputs := rfl
@[simp] theorem deviceRead_lastLoadDest : (deviceRead p a n s).2.lastLoadDest = s.lastLoadDest := rfl
@[simp] theorem deviceRead_lastLwlLwr : (deviceRead p a n s).2.lastLwlLwr = s.lastLwlLwr := rfl
@[simp] theorem deviceRead_gteWriteAge : (deviceRead p a n s).2.gteWriteAge = s.gteWriteAge := rfl
@[simp] theorem deviceRead_hiloReadAge : (deviceRead p a n s).2.hiloReadAge = s.hiloReadAge := rfl
@[simp] theorem deviceRead_draws : (deviceRead p a n s).2.draws = s.draws + 1 := rfl
@[simp] theorem deviceRead_getReg (q : Reg) : (deviceRead p a n s).2.getReg q = s.getReg q := by simp [State.getReg]
@[simp] theorem deviceRead_getCop0 (q : Reg) : (deviceRead p a n s).2.getCop0 q = s.getCop0 q := by simp [State.getCop0]

end

/-! ## deviceWrite -/

section
variable (s : State) (p : Peripheral) (a : Word) (n : Width) (v : Word)

@[simp] theorem deviceWrite_cfg : (deviceWrite p a n v s).cfg = s.cfg := rfl
@[simp] theorem deviceWrite_regs : (deviceWrite p a n v s).regs = s.regs := rfl
@[simp] theorem deviceWrite_pc : (deviceWrite p a n v s).pc = s.pc := rfl
@[simp] theorem deviceWrite_curPC : (deviceWrite p a n v s).curPC = s.curPC := rfl
@[simp] theorem deviceWrite_word : (deviceWrite p a n v s).word = s.word := rfl
@[simp] theorem deviceWrite_hi : (deviceWrite p a n v s).hi = s.hi := rfl
@[simp] theorem deviceWrite_lo : (deviceWrite p a n v s).lo = s.lo := rfl
@[simp] theorem deviceWrite_branchPending : (deviceWrite p a n v s).branchPending = s.branchPending := rfl
@[simp] theorem deviceWrite_branchTarget : (deviceWrite p a n v s).branchTarget = s.branchTarget := rfl
@[simp] theorem deviceWrite_inDelaySlot : (deviceWrite p a n v s).inDelaySlot = s.inDelaySlot := rfl
@[simp] theorem deviceWrite_cop0 : (deviceWrite p a n v s).cop0 = s.cop0 := rfl
@[simp] theorem deviceWrite_gte : (deviceWrite p a n v s).gte = s.gte := rfl
@[simp] theorem deviceWrite_ram : (deviceWrite p a n v s).ram = s.ram := rfl
@[simp] theorem deviceWrite_rom : (deviceWrite p a n v s).rom = s.rom := rfl
@[simp] theorem deviceWrite_scratch : (deviceWrite p a n v s).scratch = s.scratch := rfl
@[simp] theorem deviceWrite_cacheCtrl : (deviceWrite p a n v s).cacheCtrl = s.cacheCtrl := rfl
@[simp] theorem deviceWrite_diag : (deviceWrite p a n v s).diag = s.diag := rfl
@[simp] theorem deviceWrite_lineStatus : (deviceWrite p a n v s).lineStatus = s.lineStatus := rfl
@[simp] theorem deviceWrite_inputs : (deviceWrite p a n v s).inputs = s.inputs := rfl
@[simp] theorem deviceWrite_draws : (deviceWrite p a n v s).draws = s.draws := rfl
@[simp] theorem deviceWrite_lastLoadDest : (deviceWrite p a n v s).lastLoadDest = s.lastLoadDest := rfl
@[simp] theorem deviceWrite_lastLwlLwr : (deviceWrite p a n v s).lastLwlLwr = s.lastLwlLwr := rfl
@[simp] theorem deviceWrite_gteWriteAge : (deviceWrite p a n v s).gteWriteAge = s.gteWriteAge := rfl
@[simp] theorem deviceWrite_hiloReadAge : (deviceWrite p a n v s).hiloReadAge = s.hiloReadAge := rfl
@[simp] theorem deviceWrite_getReg (q : Reg) : (deviceWrite p a n v s).getReg q = s.getReg q := by simp [State.getReg]
@[simp] theorem deviceWrite_getCop0 (q : Reg) : (deviceWrite p a n v s).getCop0 q = s.getCop0 q := by simp [State.getCop0]

end

/-! ## Register reads after writes -/

@[simp] theorem getReg_zero (s : State) : s.getReg 0 = 0 := rfl

@[simp] theorem setReg_zero (s : State) (v : Word) : s.setReg 0 v = s := rfl

theorem getReg_setReg (s : State) (r q : Reg) (v : Word) :
    (s.setReg r v).getReg q = if q = r ∧ r ≠ 0 then v else s.getReg q := by
  by_cases hr : r = 0
  · subst hr; simp
  · by_cases hq : q = 0
    · subst hq; simp [Ne.symm hr]
    · by_cases h : q = r
      · subst h; simp [State.setReg, State.getReg, hr]
      · have h' : (r : Nat) ≠ q := fun e => h (Fin.ext e.symm)
        simp [State.setReg, State.getReg, hr, hq, h, Vector.getElem_set_ne _ _ h']

/-- Reading the register just written: the value, or 0 for register 0. -/
@[simp] theorem getReg_setReg_self (s : State) (r : Reg) (v : Word) :
    (s.setReg r v).getReg r = if r = 0 then 0 else v := by
  rw [getReg_setReg]
  by_cases hr : r = 0 <;> simp [hr]

theorem getReg_setReg_ne (s : State) {r q : Reg} (v : Word) (h : q ≠ r) :
    (s.setReg r v).getReg q = s.getReg q := by
  simp [getReg_setReg, h]

@[simp] theorem getCop0_setCop0_self (s : State) (n : Reg) (v : Word) : (s.setCop0 n v).getCop0 n = v := by
  simp [State.setCop0, State.getCop0]

theorem getCop0_setCop0_ne (s : State) {n q : Reg} (v : Word) (h : q ≠ n) :
    (s.setCop0 n v).getCop0 q = s.getCop0 q := by
  have h' : (n : Nat) ≠ q := fun e => h (Fin.ext e.symm)
  simp [State.setCop0, State.getCop0, Vector.getElem_set_ne _ _ h']

theorem getCop0_setCop0 (s : State) (n q : Reg) (v : Word) :
    (s.setCop0 n v).getCop0 q = if q = n then v else s.getCop0 q := by
  by_cases h : q = n
  · subst h; simp
  · simp [h, getCop0_setCop0_ne]

@[simp] theorem getCop0_setReg (s : State) (r q : Reg) (v : Word) : (s.setReg r v).getCop0 q = s.getCop0 q := by
  simp [State.getCop0]

@[simp] theorem getD_setD_self (g : Gte) (n : Reg) (v : Word) : (g.setD n v).getD n = v := by
  simp [Gte.setD, Gte.getD]

theorem getD_setD_ne (g : Gte) {n q : Reg} (v : Word) (h : q ≠ n) : (g.setD n v).getD q = g.getD q := by
  have h' : (n : Nat) ≠ q := fun e => h (Fin.ext e.symm)
  simp [Gte.setD, Gte.getD, Vector.getElem_set_ne _ _ h']

theorem getD_setD (g : Gte) (n q : Reg) (v : Word) :
    (g.setD n v).getD q = if q = n then v else g.getD q := by
  by_cases h : q = n
  · subst h; simp
  · simp [h, getD_setD_ne]

@[simp] theorem getC_setC_self (g : Gte) (n : Reg) (v : Word) : (g.setC n v).getC n = v := by
  simp [Gte.setC, Gte.getC]

theorem getC_setC_ne (g : Gte) {n q : Reg} (v : Word) (h : q ≠ n) : (g.setC n v).getC q = g.getC q := by
  have h' : (n : Nat) ≠ q := fun e => h (Fin.ext e.symm)
  simp [Gte.setC, Gte.getC, Vector.getElem_set_ne _ _ h']

theorem getC_setC (g : Gte) (n q : Reg) (v : Word) :
    (g.setC n v).getC q = if q = n then v else g.getC q := by
  by_cases h : q = n
  · subst h; simp
  · simp [h, getC_setC_ne]

@[simp] theorem getC_setD (g : Gte) (n q : Reg) (v : Word) : (g.setD n v).getC q = g.getC q := rfl

@[simp] theorem getD_setC (g : Gte) (n q : Reg) (v : Word) : (g.setC n v).getD q = g.getD q := rfl

/-! ## The COP0 fields exception entry reads and writes -/

@[simp] theorem status_setReg (s : State) (r : Reg) (v : Word) : (s.setReg r v).status = s.status := by
  simp [State.status]

/-- What exception entry leaves in every COP0 register (R562-R567). -/
theorem enter_getCop0 (s : State) (c : ExcCode) (a : Option Word) (q : Reg) :
    (s.enter c a).getCop0 q =
      if q = 12 then statusPush s.status
      else if q = 13 then causeOnEntry s.cause c s.inDelaySlot
      else if q = 14 then exceptionPc s
      else if q = 8 then a.getD (s.getCop0 8)
      else s.getCop0 q := by
  have key : (s.enter c a).getCop0 q =
      ((((s.setBadVAddr a).setCop0 14 (exceptionPc s)).setCop0 13
        (causeOnEntry s.cause c s.inDelaySlot)).setCop0 12 (statusPush s.status)).getCop0 q := by
    simp only [State.getCop0, State.enter, clearHazards_cop0]
  rw [key, getCop0_setCop0, getCop0_setCop0, getCop0_setCop0]
  cases a with
  | none => by_cases h : q = 8 <;> simp [State.setBadVAddr, h]
  | some b => simp [State.setBadVAddr, getCop0_setCop0]

@[simp] theorem enter_status (s : State) (c : ExcCode) (a : Option Word) :
    (s.enter c a).status = statusPush s.status := by simp [State.status, enter_getCop0]

@[simp] theorem enter_cause (s : State) (c : ExcCode) (a : Option Word) :
    (s.enter c a).cause = causeOnEntry s.cause c s.inDelaySlot := by simp [State.cause, enter_getCop0]

@[simp] theorem enter_epc (s : State) (c : ExcCode) (a : Option Word) :
    (s.enter c a).epc = exceptionPc s := by simp [State.epc, enter_getCop0]

@[simp] theorem enter_badVAddr (s : State) (c : ExcCode) (a : Option Word) :
    (s.enter c a).badVAddr = a.getD s.badVAddr := by simp [State.badVAddr, enter_getCop0]

@[simp] theorem leave_status (s : State) : s.leave.status = statusPop s.status := by
  simp [State.leave, State.status]

end Sys2Proof.Machine
end

