-- ==== Sys2Proof/Laws/Gte.lean ====
section
/-! SUPPORT. What the shared computations of the GTE write and keep, and every way a command can end. -/

namespace Sys2Proof.Machine

/-! ## Commands -/

/-- A command answers a next state always: its body in the frame, or one diagnostic (R442, R477). -/
theorem gteCommand_next (c : GteCmd) (body : Gte → Gte) (s : State) :
    (c ∈ s.cfg.gteImplemented ∧ gteCommand c body s = .next { s with gte := s.gte.frame body }) ∨
    (c ∉ s.cfg.gteImplemented ∧ gteCommand c body s = .next (s.record (.gteUnknown s.word s.curPC))) := by
  unfold gteCommand
  by_cases h : c ∈ s.cfg.gteImplemented <;> simp [h]

/-- An implemented command is its body in the frame. -/
theorem gteCommand_implemented {c : GteCmd} {s : State} (h : c ∈ s.cfg.gteImplemented) (body : Gte → Gte) :
    gteCommand c body s = .next { s with gte := s.gte.frame body } := by
  simp [gteCommand, h]

/-- The frame: FLAG as the body left it from a cleared FLAG, with bit 31 recomputed; every other register as the
body left it (R477). -/
@[simp] theorem frame_getD (g : Gte) (body : Gte → Gte) (n : Reg) :
    (g.frame body).getD n = (body (g.setC 31 0)).getD n := rfl

theorem frame_getC (g : Gte) (body : Gte → Gte) (n : Reg) :
    (g.frame body).getC n =
      if n = 31 then closeFlag (body (g.setC 31 0)).flag else (body (g.setC 31 0)).getC n := by
  simp [Gte.frame, getC_setC]

/-- The body starts from the same bank whatever FLAG held (R477). -/
theorem frame_setC_flag (g : Gte) (body : Gte → Gte) (v : Word) : (g.setC 31 v).frame body = g.frame body := by
  simp [Gte.frame, Gte.setC]

/-! ## Writing results -/

@[simp] theorem orFlag_getD (g : Gte) (b : Word) (n : Reg) : (g.orFlag b).getD n = g.getD n := rfl

theorem orFlag_getC (g : Gte) (b : Word) (n : Reg) :
    (g.orFlag b).getC n = if n = 31 then g.flag ||| b else g.getC n := by
  simp [Gte.orFlag, getC_setC]

@[simp] theorem orFlag_flag (g : Gte) (b : Word) : (g.orFlag b).flag = g.flag ||| b := by
  simp [Gte.orFlag, Gte.flag]

theorem storeMacs_getD (g : Gte) (sf : Bool) (t : Triple Checked) (n : Reg) :
    (g.storeMacs sf t).getD n =
      if n = 27 then trunc32 (t.z.val >>> shiftOf sf)
      else if n = 26 then trunc32 (t.y.val >>> shiftOf sf)
      else if n = 25 then trunc32 (t.x.val >>> shiftOf sf)
      else g.getD n := by
  simp [Gte.storeMacs, getD_setD]

@[simp] theorem storeMacs_flag (g : Gte) (sf : Bool) (t : Triple Checked) :
    (g.storeMacs sf t).flag = g.flag ||| flagsOf t := by
  simp [Gte.storeMacs, Gte.flag, orFlag_getC]

theorem storeIrs_getD (g : Gte) (t : Triple Checked) (n : Reg) :
    (g.storeIrs t).getD n =
      if n = 11 then trunc32 t.z.val
      else if n = 10 then trunc32 t.y.val
      else if n = 9 then trunc32 t.x.val
      else g.getD n := by
  simp [Gte.storeIrs, getD_setD]

@[simp] theorem storeIrs_flag (g : Gte) (t : Triple Checked) : (g.storeIrs t).flag = g.flag ||| flagsOf t := by
  simp [Gte.storeIrs, Gte.flag, orFlag_getC]

theorem storeMac0_getD (g : Gte) (v : Checked) (n : Reg) :
    (g.storeMac0 v).getD n = if n = 24 then trunc32 v.val else g.getD n := by
  simp [Gte.storeMac0, getD_setD]

@[simp] theorem storeMac0_flag (g : Gte) (v : Checked) : (g.storeMac0 v).flag = g.flag ||| v.flag := by
  simp [Gte.storeMac0, Gte.flag, orFlag_getC]

/-! ## The FIFOs (R429-R431) -/

theorem pushSxy_getD (g : Gte) (v : Word) (n : Reg) :
    (g.pushSxy v).getD n =
      if n = 14 then v else if n = 13 then g.getD 14 else if n = 12 then g.getD 13 else g.getD n := by
  simp [Gte.pushSxy, getD_setD]

theorem pushSz_getD (g : Gte) (v : Word) (n : Reg) :
    (g.pushSz v).getD n =
      if n = 19 then v else if n = 18 then g.getD 19 else if n = 17 then g.getD 18
      else if n = 16 then g.getD 17 else g.getD n := by
  simp [Gte.pushSz, getD_setD]

theorem pushRgb_getD (g : Gte) (v : Word) (n : Reg) :
    (g.pushRgb v).getD n =
      if n = 22 then v else if n = 21 then g.getD 22 else if n = 20 then g.getD 21 else g.getD n := by
  simp [Gte.pushRgb, getD_setD]

@[simp] theorem pushSxy_getC (g : Gte) (v : Word) (n : Reg) : (g.pushSxy v).getC n = g.getC n := rfl
@[simp] theorem pushSz_getC (g : Gte) (v : Word) (n : Reg) : (g.pushSz v).getC n = g.getC n := rfl
@[simp] theorem pushRgb_getC (g : Gte) (v : Word) (n : Reg) : (g.pushRgb v).getC n = g.getC n := rfl

/-! ## Control registers other than FLAG -/

@[simp] theorem orFlag_getC_ne (g : Gte) (b : Word) {n : Reg} (h : n ≠ 31) : (g.orFlag b).getC n = g.getC n := by
  simp [orFlag_getC, h]

theorem storeMacs_getC_ne (g : Gte) (sf : Bool) (t : Triple Checked) {n : Reg} (h : n ≠ 31) :
    (g.storeMacs sf t).getC n = g.getC n := by
  simp [Gte.storeMacs, h]

theorem storeIrs_getC_ne (g : Gte) (t : Triple Checked) {n : Reg} (h : n ≠ 31) :
    (g.storeIrs t).getC n = g.getC n := by
  simp [Gte.storeIrs, h]

theorem storeMac0_getC_ne (g : Gte) (v : Checked) {n : Reg} (h : n ≠ 31) : (g.storeMac0 v).getC n = g.getC n := by
  simp [Gte.storeMac0, h]

theorem colourPush_getC_ne (g : Gte) {n : Reg} (h : n ≠ 31) : g.colourPush.getC n = g.getC n := by
  simp [Gte.colourPush, h]

/-! ## Ranges -/

theorem clamp_range {lo hi : Int} (h : lo ≤ hi) (v : Int) : lo ≤ clamp v lo hi ∧ clamp v lo hi ≤ hi := by
  unfold clamp
  split_ifs <;> omega

theorem wrap44_range (v : Int) : -2 ^ 43 ≤ wrap44 v ∧ wrap44 v < 2 ^ 43 := by
  unfold wrap44
  omega

/-- A value in the 44-bit range is not wrapped. -/
theorem wrap44_of_range {v : Int} (h : -2 ^ 43 ≤ v) (h' : v < 2 ^ 43) : wrap44 v = v := by
  unfold wrap44
  omega

/-- Wrapping a partial sum does not change the wrapped sum (R478, R487). -/
theorem wrap44_add (a b : Int) : wrap44 (wrap44 a + b) = wrap44 (a + b) := by
  unfold wrap44
  omega

theorem limB_range (i : Lane) (lm : Bool) (v : Int) :
    irLow lm ≤ (limB i lm v).val ∧ (limB i lm v).val ≤ 32767 :=
  clamp_range (by cases lm <;> decide) v

theorem flagBit_getLsbD (n : Nat) (b : Bool) (k : Nat) :
    (flagBit n b).getLsbD k = (b && decide (k = n) && decide (k < 32)) := by
  cases b with
  | false => simp [flagBit]
  | true =>
    simp only [flagBit, if_true, BitVec.getLsbD_shiftLeft, BitVec.getLsbD_one]
    by_cases h : k < 32 <;> by_cases h2 : k = n <;> simp [h, h2] <;> omega

/-! ## The readers and the staged sums, as registers, halves and one wrapped sum -/

theorem s16_eq_lowHalf (w : Word) : s16 w = lowHalf w := by
  simp [s16, lowHalf, BitVec.extractLsb']

theorem hi16s_eq_highHalf (w : Word) : hi16s w = highHalf w := by
  have h : w.extractLsb' 16 16 = (w >>> 16).setWidth 16 := by
    apply BitVec.eq_of_toNat_eq
    simp
  rw [hi16s, highHalf, h]

theorem wrap44_eq_wrapped44 (x : Int) : wrap44 x = wrapped44 x := by
  simp [wrap44, wrapped44]

theorem shiftOf_shifted (sf : Bool) (x : Int) : x >>> shiftOf sf = shifted sf x := by
  cases sf <;> simp [shiftOf, shifted, Int.shiftRight_eq_div_pow]

theorem rotation_matrixAt (g : Gte) (i : Lane) :
    (g.rotation.get i).x = matrixAt g 0 i .l1 ∧ (g.rotation.get i).y = matrixAt g 0 i .l2 ∧
      (g.rotation.get i).z = matrixAt g 0 i .l3 := by
  cases i <;> refine ⟨?_, ?_, ?_⟩ <;> first | exact s16_eq_lowHalf _ | exact hi16s_eq_highHalf _

theorem light_matrixAt (g : Gte) (i : Lane) :
    (g.light.get i).x = matrixAt g 8 i .l1 ∧ (g.light.get i).y = matrixAt g 8 i .l2 ∧
      (g.light.get i).z = matrixAt g 8 i .l3 := by
  cases i <;> refine ⟨?_, ?_, ?_⟩ <;> first | exact s16_eq_lowHalf _ | exact hi16s_eq_highHalf _

theorem lightColour_matrixAt (g : Gte) (i : Lane) :
    (g.lightColour.get i).x = matrixAt g 16 i .l1 ∧ (g.lightColour.get i).y = matrixAt g 16 i .l2 ∧
      (g.lightColour.get i).z = matrixAt g 16 i .l3 := by
  cases i <;> refine ⟨?_, ?_, ?_⟩ <;> first | exact s16_eq_lowHalf _ | exact hi16s_eq_highHalf _

theorem vertex_vectorAt (g : Gte) (k : Lane) :
    (g.vertex k).x = vectorAt g k.vertexReg .l1 ∧ (g.vertex k).y = vectorAt g k.vertexReg .l2 ∧
      (g.vertex k).z = vectorAt g k.vertexReg .l3 := by
  cases k <;> refine ⟨?_, ?_, ?_⟩ <;> first | exact s16_eq_lowHalf _ | exact hi16s_eq_highHalf _

theorem irVec_irsAt (g : Gte) (l : Lane) : g.irVec.get l = irsAt g l := by
  cases l <;> exact s16_eq_lowHalf _

theorem translation_wordsAt (g : Gte) (l : Lane) : g.translation.get l = wordsAt g 5 l := by cases l <;> rfl
theorem background_wordsAt (g : Gte) (l : Lane) : g.background.get l = wordsAt g 13 l := by cases l <;> rfl
theorem farColour_wordsAt (g : Gte) (l : Lane) : g.farColour.get l = wordsAt g 21 l := by cases l <;> rfl
theorem macVec_get (g : Gte) (l : Lane) : g.macVec.get l = (g.getD l.mac).toInt := by cases l <;> rfl
theorem colourVec_get (w : Word) (l : Lane) : (colourVec w).get l = bytesAt w l := by cases l <;> rfl

@[simp] theorem eachLane_get {α : Type} (f : Lane → α) (l : Lane) : (eachLane f).get l = f l := by cases l <;> rfl

/-- A row of `MulMV` is the whole sum wrapped once (R487). -/
theorem dotRow_val (i : Lane) (t : Int) (m v : Vec) :
    (dotRow i t m v).val = wrapped44 (t * 4096 + m.x * v.x + m.y * v.y + m.z * v.z) := by
  simp only [dotRow, checkA, wrap44_add]
  exact wrap44_eq_wrapped44 _

@[simp] theorem mulMVSums_get (m : Matrix) (v t : Vec) (l : Lane) :
    (mulMVSums m v t).get l = dotRow l (t.get l) (m.get l) v := by simp [mulMVSums]

theorem rotation_mulSum (g : Gte) (k l : Lane) :
    ((mulMVSums g.rotation (g.vertex k) g.translation).get l).val = perspSum g k l := by
  simp only [mulMVSums_get, dotRow_val, perspSum, mulSum, rotation_matrixAt, vertex_vectorAt, translation_wordsAt]

theorem light_mulSum (g : Gte) (k l : Lane) :
    ((mulMVSums g.light (g.vertex k) zeroVec).get l).val =
      mulSum (matrixAt g 8) (vectorAt g k.vertexReg) (fun _ => 0) l := by
  have hz : zeroVec.get l = 0 := by cases l <;> rfl
  simp only [mulMVSums_get, dotRow_val, mulSum, light_matrixAt, vertex_vectorAt, hz]

theorem lightColour_mulSum (g : Gte) (l : Lane) :
    ((mulMVSums g.lightColour g.irVec g.background).get l).val =
      mulSum (matrixAt g 16) (irsAt g) (wordsAt g 13) l := by
  have h1 := irVec_irsAt g .l1
  have h2 := irVec_irsAt g .l2
  have h3 := irVec_irsAt g .l3
  simp only [Triple.get] at h1 h2 h3
  simp only [mulMVSums_get, dotRow_val, mulSum, lightColour_matrixAt, background_wordsAt, h1, h2, h3]

/-! ## What each shared step leaves in MAC, IR and the colour FIFO -/

@[simp] theorem storeMacs_mac (g : Gte) (sf : Bool) (t : Triple Checked) (l : Lane) :
    (g.storeMacs sf t).getD l.mac = macWord sf (t.get l).val := by
  cases l <;> simp [storeMacs_getD, Lane.mac, Triple.get, macWord, shiftOf_shifted, trunc32]

@[simp] theorem storeMacs_ir (g : Gte) (sf : Bool) (t : Triple Checked) (l : Lane) :
    (g.storeMacs sf t).getD l.ir = g.getD l.ir := by
  cases l <;> simp [storeMacs_getD, Lane.ir]

@[simp] theorem storeIrs_ir (g : Gte) (t : Triple Checked) (l : Lane) :
    (g.storeIrs t).getD l.ir = trunc32 (t.get l).val := by
  cases l <;> simp [storeIrs_getD, Lane.ir, Triple.get]

@[simp] theorem storeIrs_mac (g : Gte) (t : Triple Checked) (l : Lane) :
    (g.storeIrs t).getD l.mac = g.getD l.mac := by
  cases l <;> simp [storeIrs_getD, Lane.mac]

theorem limB_val (l : Lane) (lm : Bool) (x : Int) : (limB l lm x).val = irOf lm x := rfl

theorem irOf_range (lm : Bool) (x : Int) : -0x8000 ≤ irOf lm x ∧ irOf lm x ≤ 0x7FFF := by
  have := limB_range .l1 lm x
  rw [limB_val] at this
  cases lm <;> simp only [irLow] at this <;> constructor <;> omega

@[simp] theorem macToIr_mac (g : Gte) (lm : Bool) (l : Lane) : (g.macToIr lm).getD l.mac = g.getD l.mac := by
  simp [Gte.macToIr]

@[simp] theorem macToIr_ir (g : Gte) (lm : Bool) (l : Lane) :
    (g.macToIr lm).getD l.ir = BitVec.ofInt 32 (irOf lm (g.getD l.mac).toInt) := by
  simp [Gte.macToIr, limB_val, macVec_get, trunc32]

/-- A 16-bit value stored as a word reads back. -/
theorem toInt_ofInt_small {x : Int} (h : -0x8000 ≤ x) (h' : x ≤ 0xFFFF) : (BitVec.ofInt 32 x).toInt = x := by
  rw [BitVec.toInt_ofInt, Int.bmod_eq_of_le] <;> norm_num <;> omega

theorem lowHalf_ofInt {x : Int} (h : -0x8000 ≤ x) (h' : x ≤ 0x7FFF) : lowHalf (BitVec.ofInt 32 x) = x := by
  have h1 : (BitVec.ofInt 32 x).setWidth 16 = BitVec.ofInt 16 x := by
    apply BitVec.eq_of_toNat_eq
    simp only [BitVec.toNat_setWidth, BitVec.toNat_ofInt]
    omega
  rw [lowHalf, h1, BitVec.toInt_ofInt, Int.bmod_eq_of_le] <;> norm_num <;> omega

/-- IR after `MacToIr` is MAC saturated (R488). -/
theorem macToIr_irsAt (g : Gte) (lm : Bool) (l : Lane) :
    irsAt (g.macToIr lm) l = irOf lm (g.getD l.mac).toInt := by
  have h := irOf_range lm (g.getD l.mac).toInt
  simp only [irsAt, macToIr_ir]
  exact lowHalf_ofInt h.1 h.2

theorem macToIr_getD_ne (g : Gte) (lm : Bool) {n : Reg} (h : n ≠ 9) (h' : n ≠ 10) (h'' : n ≠ 11) :
    (g.macToIr lm).getD n = g.getD n := by
  simp [Gte.macToIr, storeIrs_getD, h, h', h'']

theorem macToIr_getC_ne (g : Gte) (lm : Bool) {n : Reg} (h : n ≠ 31) : (g.macToIr lm).getC n = g.getC n :=
  storeIrs_getC_ne _ _ h

@[simp] theorem colourPush_mac (g : Gte) (l : Lane) : g.colourPush.getD l.mac = g.getD l.mac := by
  cases l <;> simp [Gte.colourPush, pushRgb_getD, Lane.mac]

@[simp] theorem colourPush_ir (g : Gte) (l : Lane) : g.colourPush.getD l.ir = g.getD l.ir := by
  cases l <;> simp [Gte.colourPush, pushRgb_getD, Lane.ir]

/-- The FIFO after a push: shifted once (R431). -/
theorem colourPush_shifts (g : Gte) :
    g.colourPush.getD 20 = g.getD 21 ∧ g.colourPush.getD 21 = g.getD 22 := by
  simp [Gte.colourPush, pushRgb_getD]

end Sys2Proof.Machine
end

