-- ==== Sys2Proof/Laws/Memory.lean ====
section
/-! SUPPORT. Byte memories: a read after a write, and the canonical form every operation keeps. -/

namespace Sys2Proof.Machine

/-! ## One byte -/

theorem Memory.wf_nil : Memory.wf [] := by decide

theorem Memory.wf_tail {c : Host.Cell} {m : Memory} (h : Memory.wf (c :: m)) : Memory.wf m :=
  ⟨h.1.of_cons, fun d hd => h.2 d (List.mem_cons_of_mem _ hd)⟩

theorem Memory.wf_cons {c : Host.Cell} {m : Memory} :
    Memory.wf (c :: m) ↔ (∀ d ∈ m, c.1 < d.1) ∧ c.2 ≠ Memory.fill ∧ Memory.wf m := by
  simp only [Memory.wf, List.pairwise_cons, List.mem_cons, forall_eq_or_imp]
  tauto

/-- An offset below every listed one reads as the fill. -/
theorem Memory.read_below {m : Memory} {a : Nat} (h : ∀ d ∈ m, a < d.1) : Memory.read m a = Memory.fill := by
  induction m with
  | nil => rfl
  | cons c m ih =>
    have hc := h c (by simp)
    have : c.1 ≠ a := by omega
    simpa [Memory.read, this] using ih fun d hd => h d (List.mem_cons_of_mem _ hd)

/-- The offsets a write lists: those listed before, and its own. -/
theorem Memory.mem_write {m : Memory} {a : Nat} {v : Byte} {d : Host.Cell} (h : d ∈ Memory.write m a v) :
    d ∈ m ∨ (d.1 = a ∧ d.2 = v ∧ v ≠ Memory.fill) := by
  induction m with
  | nil =>
    unfold Memory.write at h
    split at h <;> simp_all
  | cons c m ih =>
    unfold Memory.write at h
    split_ifs at h with h1 h2 h3 h4
    · exact .inl h
    · rcases List.mem_cons.1 h with rfl | h
      · exact .inr ⟨rfl, rfl, h2⟩
      · exact .inl h
    · exact .inl (List.mem_cons_of_mem _ h)
    · rcases List.mem_cons.1 h with rfl | h
      · exact .inr ⟨h3.symm, rfl, h4⟩
      · exact .inl (List.mem_cons_of_mem _ h)
    · rcases List.mem_cons.1 h with rfl | h
      · exact .inl (by simp)
      · exact (ih h).imp_left (List.mem_cons_of_mem _)

/-- A write keeps the canonical form. -/
theorem Memory.wf_write {m : Memory} (hm : Memory.wf m) (a : Nat) (v : Byte) :
    Memory.wf (Memory.write m a v) := by
  induction m with
  | nil =>
    unfold Memory.write
    split_ifs with h
    · exact hm
    · exact Memory.wf_cons.2 ⟨by simp, h, Memory.wf_nil⟩
  | cons c m ih =>
    obtain ⟨hlt, hne, hwf⟩ := Memory.wf_cons.1 hm
    unfold Memory.write
    split_ifs with h1 h2 h3 h4
    · exact hm
    · refine Memory.wf_cons.2 ⟨fun d hd => ?_, h2, hm⟩
      rcases List.mem_cons.1 hd with rfl | hd
      · exact h1
      · exact h1.trans (hlt d hd)
    · exact hwf
    · exact Memory.wf_cons.2 ⟨hlt, h4, hwf⟩
    · refine Memory.wf_cons.2 ⟨fun d hd => ?_, hne, ih hwf⟩
      rcases Memory.mem_write hd with hd | ⟨hd, -, -⟩
      · exact hlt d hd
      · simp only at h1 h3 ⊢
        omega

/-- A read after a write: the value at the offset written, every other offset as before. -/
theorem Memory.read_write {m : Memory} (hm : Memory.wf m) (a : Nat) (v : Byte) (b : Nat) :
    Memory.read (Memory.write m a v) b = if b = a then v else Memory.read m b := by
  induction m with
  | nil =>
    unfold Memory.write
    split_ifs with h1 h2 h2 <;> simp_all [Memory.read, eq_comm]
  | cons c m ih =>
    obtain ⟨hlt, hne, hwf⟩ := Memory.wf_cons.1 hm
    obtain ⟨k, w⟩ := c
    have hbelow : ∀ {x}, x ≤ k → Memory.read m x = Memory.fill := fun hx =>
      Memory.read_below fun d hd => lt_of_le_of_lt hx (hlt d hd)
    unfold Memory.write
    split_ifs with h1 h2 hb hb h3 h4 hb hb hb
    · subst hb
      have : k ≠ b := by omega
      simp [Memory.read, this, hbelow h1.le, h2]
    · rfl
    · subst hb; simp [Memory.read]
    · simp [Memory.read, Ne.symm hb]
    · subst hb; subst h3; simp [hbelow le_rfl, h4]
    · have : k ≠ b := by omega
      simp [Memory.read, this]
    · subst hb; subst h3; simp [Memory.read]
    · have : k ≠ b := by omega
      simp [Memory.read, this]
    · subst hb
      simp [Memory.read, Ne.symm h3, ih hwf]
    · by_cases hk : k = b
      · simp [Memory.read, hk]
      · simp [Memory.read, hk, ih hwf, hb]

/-- The same memory is the same list: equal reads everywhere make canonical memories equal. -/
theorem Memory.ext_of_read {m m' : Memory} (hm : Memory.wf m) (hm' : Memory.wf m')
    (h : ∀ a, Memory.read m a = Memory.read m' a) : m = m' := by
  induction m generalizing m' with
  | nil =>
    cases m' with
    | nil => rfl
    | cons c m' =>
      obtain ⟨-, hne, -⟩ := Memory.wf_cons.1 hm'
      exact absurd (by simpa [Memory.read] using (h c.1).symm) hne
  | cons c m ih =>
    obtain ⟨hlt, hne, hwf⟩ := Memory.wf_cons.1 hm
    cases m' with
    | nil => exact absurd (by simpa [Memory.read] using h c.1) hne
    | cons c' m' =>
      obtain ⟨hlt', hne', hwf'⟩ := Memory.wf_cons.1 hm'
      obtain ⟨k, w⟩ := c
      obtain ⟨k', w'⟩ := c'
      simp only at hlt hlt' hne hne'
      have hk : k = k' := by
        rcases lt_trichotomy k k' with hk | hk | hk
        · have h1 := h k
          have h2 : k' ≠ k := by omega
          rw [Memory.read, if_pos rfl, Memory.read, if_neg h2,
            Memory.read_below fun d hd => hk.trans (hlt' d hd)] at h1
          exact absurd h1 hne
        · exact hk
        · have h1 := h k'
          have h2 : k ≠ k' := by omega
          rw [Memory.read, if_neg h2, Memory.read, if_pos rfl,
            Memory.read_below fun d hd => hk.trans (hlt d hd)] at h1
          exact absurd h1.symm hne'
      subst hk
      have hw : w = w' := by simpa [Memory.read] using h k
      subst hw
      have := ih hwf hwf' fun a => by
        by_cases ha : k = a
        · subst ha
          rw [Memory.read_below hlt, Memory.read_below hlt']
        · simpa [Memory.read, ha] using h a
      rw [this]

/-! ## Little-endian groups -/

theorem Memory.wf_writeLE {m : Memory} (hm : Memory.wf m) (a n : Nat) (v : Word) :
    Memory.wf (Memory.writeLE m a n v) := by
  induction n generalizing m a v with
  | zero => exact hm
  | succ n ih => exact ih (Memory.wf_write hm _ _) _ _

theorem Memory.wf_load {m : Memory} (hm : Memory.wf m) (a : Nat) (bs : List Byte) :
    Memory.wf (Memory.load m a bs) := by
  induction bs generalizing m a with
  | nil => exact hm
  | cons b bs ih => exact ih (Memory.wf_write hm _ _) _

/-- A byte outside the `n` written is as before. -/
theorem Memory.read_writeLE_outside {m : Memory} (hm : Memory.wf m) {a n : Nat} (v : Word) {b : Nat}
    (hb : b < a ∨ a + n ≤ b) : Memory.read (Memory.writeLE m a n v) b = Memory.read m b := by
  induction n generalizing m a v with
  | zero => rfl
  | succ n ih =>
    rw [Memory.writeLE, ih (Memory.wf_write hm _ _) _ (by omega), Memory.read_write hm,
      if_neg (by omega)]

/-- Byte `k` of the `n` written is byte `k` of the value. -/
theorem Memory.read_writeLE {m : Memory} (hm : Memory.wf m) (a : Nat) {n k : Nat} (v : Word) (hk : k < n) :
    Memory.read (Memory.writeLE m a n v) (a + k) = (v >>> (8 * k)).setWidth 8 := by
  induction n generalizing m a v k with
  | zero => omega
  | succ n ih =>
    rw [Memory.writeLE]
    cases k with
    | zero =>
      rw [Memory.read_writeLE_outside (Memory.wf_write hm _ _) _ (by omega), Memory.read_write hm]
      simp
    | succ k =>
      have h := ih (Memory.wf_write hm a (v.setWidth 8)) (a + 1) (v >>> 8) (by omega : k < n)
      rw [show a + (k + 1) = a + 1 + k by omega, h, ← BitVec.shiftRight_add,
        show 8 + 8 * k = 8 * (k + 1) by omega]

/-- Bit `i` of the little-endian value: bit `i % 8` of byte `i / 8`, zero above the bytes read. -/
theorem Memory.getLsbD_readLE (m : Memory) (a n i : Nat) (hn : n ≤ 4) :
    (Memory.readLE m a n).getLsbD i = (decide (i < 8 * n) && (Memory.read m (a + i / 8)).getLsbD (i % 8)) := by
  induction n generalizing a i with
  | zero => simp [Memory.readLE]
  | succ n ih =>
    rw [Memory.readLE, BitVec.getLsbD_or, BitVec.getLsbD_setWidth, BitVec.getLsbD_shiftLeft]
    by_cases h8 : i < 8
    · have h1 : i < 32 := by omega
      have h2 : i / 8 = 0 := by omega
      have h3 : i % 8 = i := by omega
      have h4 : i < 8 * (n + 1) := by omega
      simp [h8, h1, h2, h3, h4]
    · have hb : (Memory.read m a).getLsbD i = false := BitVec.getLsbD_of_ge _ _ (by omega)
      rw [hb, ih (a + 1) (i - 8) (by omega)]
      have h2 : a + 1 + (i - 8) / 8 = a + i / 8 := by omega
      have h3 : (i - 8) % 8 = i % 8 := by omega
      rw [h2, h3]
      by_cases h9 : i < 8 * (n + 1)
      · have h10 : i - 8 < 8 * n := by omega
        have h11 : i < 32 := by omega
        simp [h8, h9, h10, h11]
      · have h10 : ¬ i - 8 < 8 * n := by omega
        simp [h9, h10]

/-- Byte `k` of the value read is the byte at offset `a + k`. -/
theorem Memory.extract_readLE (m : Memory) (a : Nat) {n k : Nat} (hn : n ≤ 4) (hk : k < n) :
    (Memory.readLE m a n).extractLsb' (8 * k) 8 = Memory.read m (a + k) := by
  apply BitVec.eq_of_getLsbD_eq
  intro i hi
  rw [BitVec.getLsbD_extractLsb', Memory.getLsbD_readLE m a n _ hn]
  have h1 : 8 * k + i < 8 * n := by omega
  have h2 : (8 * k + i) / 8 = k := by omega
  have h3 : (8 * k + i) % 8 = i := by omega
  simp [hi, h1, h2, h3]

/-- What is read back right after a write of the same width: the bits written. -/
theorem Memory.readLE_writeLE {m : Memory} (hm : Memory.wf m) (a n : Nat) (v : Word) (hn : n ≤ 4) (i : Nat) :
    (Memory.readLE (Memory.writeLE m a n v) a n).getLsbD i = (decide (i < 8 * n) && v.getLsbD i) := by
  rw [Memory.getLsbD_readLE _ _ _ _ hn]
  by_cases h : i < 8 * n
  · rw [Memory.read_writeLE hm a v (by omega : i / 8 < n)]
    have h1 : i % 8 < 8 := by omega
    have h2 : 8 * (i / 8) + i % 8 = i := by omega
    simp [h, h1, h2]
  · simp [h]

/-- Writing back what was read changes nothing. -/
theorem Memory.writeLE_readLE {m : Memory} (hm : Memory.wf m) (a n : Nat) (hn : n ≤ 4) :
    Memory.writeLE m a n (Memory.readLE m a n) = m := by
  apply Memory.ext_of_read (Memory.wf_writeLE hm _ _ _) hm
  intro b
  by_cases h : a ≤ b ∧ b < a + n
  · obtain ⟨k, rfl⟩ : ∃ k, b = a + k := ⟨b - a, by omega⟩
    have hk : k < n := by omega
    rw [Memory.read_writeLE hm a _ hk, ← Memory.extract_readLE m a hn hk]
    rfl
  · exact Memory.read_writeLE_outside hm _ (by omega)

end Sys2Proof.Machine
end

