-- ==== Sys2Proof/Laws/Ops.lean ====
section
/-! SUPPORT. What the bus dispatcher, the data path and the fetch path do, said once: which fields an access may
change, the bytes it moves, and the canonical form every memory operation keeps. -/

namespace Sys2Proof.Machine

/-! ## Addresses in one word -/

/-- An AND keeps an address a multiple of an access's width. -/
theorem and_aligned (a m : Word) (n : Width) (h : a.toNat % n.bytes = 0) : (a &&& m).toNat % n.bytes = 0 := by
  cases n with
  | byte => exact Nat.mod_one _
  | half =>
    have h2 : a.toNat % 2 ^ 1 = 0 := h
    have : (a &&& m).toNat % 2 ^ 1 = 0 := by
      rw [BitVec.toNat_and, Nat.and_mod_two_pow, h2, Nat.zero_and]
    exact this
  | word =>
    have h2 : a.toNat % 2 ^ 2 = 0 := h
    have : (a &&& m).toNat % 2 ^ 2 = 0 := by
      rw [BitVec.toNat_and, Nat.and_mod_two_pow, h2, Nat.zero_and]
    exact this

/-- The translated address of an aligned access is aligned. -/
theorem translate_aligned (cfg : Config) (ea : Word) (n : Width) (h : ea.toNat % n.bytes = 0) :
    (translate cfg ea).toNat % n.bytes = 0 := and_aligned _ _ n h

theorem alignedWord_aligned (ea : Word) : (alignedWord ea).toNat % 4 = 0 := by
  have : (ea &&& 0xFFFFFFFC).toNat % 2 ^ 2 = 0 := by
    rw [BitVec.toNat_and, Nat.and_mod_two_pow]
    simp
  exact this

theorem Width.bytes_le (n : Width) : n.bytes ≤ 4 := by cases n <;> decide
theorem Width.bytes_pos (n : Width) : 0 < n.bytes := by cases n <;> decide

/-- Byte `k` of an aligned access: its address, and the word that holds it. -/
theorem aligned_byte {p : Word} {n : Width} (h : p.toNat % n.bytes = 0) {k : Nat} (hk : k < n.bytes) :
    (p + BitVec.ofNat 32 k).toNat = p.toNat + k ∧ (p.toNat + k) / 4 = p.toNat / 4 := by
  have hp := p.isLt
  cases n <;> simp only [Width.bytes] at h hk <;> (rw [BitVec.toNat_add, BitVec.toNat_ofNat]; omega)

/-- An aligned access ends in the word it begins in. -/
theorem aligned_end {a : Nat} {n : Width} (h : a % n.bytes = 0) : a + n.bytes ≤ a / 4 * 4 + 4 := by
  cases n <;> simp only [Width.bytes] at h ⊢ <;> omega

theorem inScratch_sameWord {cfg : Config} (hm : cfg.mapOk) {a b : Word} (h : a.toNat / 4 = b.toNat / 4) :
    inScratch cfg a = inScratch cfg b := by
  obtain ⟨-, -, -, h1, h2, -⟩ := hm
  unfold inScratch
  apply decide_eq_decide.2
  omega

theorem inCacheCtrl_sameWord {cfg : Config} (hm : cfg.mapOk) {a b : Word} (h : a.toNat / 4 = b.toNat / 4) :
    inCacheCtrl cfg a = inCacheCtrl cfg b := by
  obtain ⟨-, -, -, -, -, h1, -⟩ := hm
  unfold inCacheCtrl
  apply decide_eq_decide.2
  omega

theorem rangeAt_sameWord {cfg : Config} (hm : cfg.mapOk) {a b : Word} (h : a.toNat / 4 = b.toNat / 4) :
    rangeAt cfg a = rangeAt cfg b := by
  obtain ⟨hr, -⟩ := hm
  unfold rangeAt
  generalize cfg.busRanges = l at hr
  induction l with
  | nil => rfl
  | cons r l ih =>
    have h1 := hr r (by simp)
    have h2 : rangeHolds r a = rangeHolds r b := by
      unfold rangeHolds
      apply decide_eq_decide.2
      omega
    rw [List.find?_cons, List.find?_cons, h2, ih fun q hq => hr q (List.mem_cons_of_mem _ hq)]

theorem placeOf_sameWord {cfg : Config} (hm : cfg.mapOk) {a b : Word} (h : a.toNat / 4 = b.toNat / 4) :
    placeOf cfg a = placeOf cfg b := by
  unfold placeOf
  rw [inScratch_sameWord hm h, inCacheCtrl_sameWord hm h, rangeAt_sameWord hm h]

/-- The range found is one of the map's and holds the address. -/
theorem rangeAt_some {cfg : Config} {p : Word} {r : BusRange} (h : rangeAt cfg p = some r) :
    r ∈ cfg.busRanges ∧ r.base ≤ p.toNat ∧ p.toNat < r.base + r.size := by
  refine ⟨List.mem_of_find?_eq_some h, ?_⟩
  simpa [rangeHolds] using List.find?_some h

/-- A map has one RAM range at most (R131). -/
theorem ram_unique {cfg : Config} (hm : cfg.mapOk) {r q : BusRange} (hr : r ∈ cfg.busRanges)
    (hq : q ∈ cfg.busRanges) (hrd : r.device = .ram) (hqd : q.device = .ram) : r = q := by
  have h1 : r ∈ cfg.busRanges.filter fun r => decide (r.device = .ram) := by simp [hr, hrd]
  have h2 : q ∈ cfg.busRanges.filter fun r => decide (r.device = .ram) := by simp [hq, hqd]
  have h3 := hm.2.2.1
  generalize (cfg.busRanges.filter fun r => decide (r.device = .ram)) = l at h1 h2 h3
  match l, h3 with
  | [], _ => simp at h1
  | [x], _ => simp_all

/-! ## An aligned access lies in what its first byte selects -/

theorem not_spansRange {cfg : Config} (hm : cfg.mapOk) {p : Word} {n : Width} (h : p.toNat % n.bytes = 0)
    {r : BusRange} (hr : rangeAt cfg p = some r) : p.toNat + n.bytes ≤ r.base + r.size := by
  obtain ⟨h1, h2, h3⟩ := rangeAt_some hr
  have h4 := hm.1 r h1
  have h5 := aligned_end h
  omega

theorem scratch_fits {cfg : Config} (hm : cfg.mapOk) {p : Word} {n : Width} (h : p.toNat % n.bytes = 0)
    (hs : inScratch cfg p = true) : p.toNat - cfg.scratchBase + n.bytes ≤ cfg.scratchSize := by
  obtain ⟨-, -, -, h1, h2, -⟩ := hm
  have h3 := of_decide_eq_true hs
  have h5 := aligned_end h
  omega

theorem cacheCtrl_fits {cfg : Config} (hm : cfg.mapOk) {p : Word} {n : Width} (h : p.toNat % n.bytes = 0)
    (hs : inCacheCtrl cfg p = true) : p.toNat - cfg.cacheCtrlAddr + n.bytes ≤ 4 := by
  obtain ⟨-, -, -, -, -, h1, -⟩ := hm
  have h3 := of_decide_eq_true hs
  have h5 := aligned_end h
  omega

/-! ## What an access may change -/

/-- A bus read changes the diagnostics, the device events and the free values taken, by one entry at most. -/
theorem busRead_state {p v : Word} {n : Width} {s t : State} (h : busRead p n s = .ok (v, t)) :
    t = { s with diag := t.diag, events := t.events, draws := t.draws } ∧
    ∃ ds es, t.diag = s.diag ++ ds ∧ t.events = s.events ++ es ∧ ds.length + es.length ≤ 1 := by
  unfold busRead at h
  split at h
  · obtain ⟨-, rfl⟩ := by simpa using h
    exact ⟨rfl, [_], [], rfl, by simp, by simp⟩
  · split_ifs at h
    split at h
    · obtain ⟨-, rfl⟩ := by simpa using h
      exact ⟨rfl, [], [], by simp⟩
    · obtain ⟨-, rfl⟩ := by simpa using h
      exact ⟨rfl, [], [], by simp⟩
    · simp only [Except.ok.injEq, deviceRead, Prod.mk.injEq] at h
      obtain ⟨-, rfl⟩ := h
      exact ⟨rfl, [], [_], by simp, rfl, by simp⟩

/-- A data read changes what a bus read changes. -/
theorem memRead_state {ea v : Word} {n : Width} {s t : State} (h : memRead ea n s = .ok (v, t)) :
    t = { s with diag := t.diag, events := t.events, draws := t.draws } ∧
    ∃ ds es, t.diag = s.diag ++ ds ∧ t.events = s.events ++ es ∧ ds.length + es.length ≤ 1 := by
  unfold memRead scratchRead cacheCtrlRead at h
  simp only at h
  split_ifs at h
  · obtain ⟨-, rfl⟩ := by simpa using h
    exact ⟨rfl, [], [], by simp⟩
  · obtain ⟨-, rfl⟩ := by simpa using h
    exact ⟨rfl, [], [], by simp⟩
  · exact busRead_state h

/-- A fetch changes what a bus read changes. -/
theorem fetch_state {a v : Word} {s t : State} (h : fetch a s = .ok (v, t)) :
    t = { s with diag := t.diag, events := t.events, draws := t.draws } ∧
    ∃ ds es, t.diag = s.diag ++ ds ∧ t.events = s.events ++ es ∧ ds.length + es.length ≤ 1 := busRead_state h

/-- A bus write changes RAM, the diagnostics and the device events; RAM keeps its canonical form. -/
theorem busWrite_state {p v : Word} {n : Width} {s t : State} (h : busWrite p n v s = .ok t) :
    t = { s with ram := t.ram, diag := t.diag, events := t.events } ∧ (s.ram.wf → t.ram.wf) ∧
    ∃ ds es, t.diag = s.diag ++ ds ∧ t.events = s.events ++ es ∧ ds.length + es.length ≤ 1 := by
  unfold busWrite at h
  split at h
  · obtain rfl := by simpa using h
    exact ⟨rfl, id, [_], [], rfl, by simp, by simp⟩
  · split_ifs at h
    split at h
    · obtain rfl := by simpa using h
      exact ⟨rfl, fun hw => Memory.wf_writeLE hw _ _ _, [], [], by simp⟩
    · obtain rfl := by simpa using h
      exact ⟨rfl, id, [_], [], rfl, by simp, by simp⟩
    · obtain rfl := by simpa using h
      exact ⟨rfl, id, [], [_], by simp [deviceWrite], rfl, by simp⟩

/-- A data write changes RAM, the scratchpad, the cache-control register, the diagnostics and the device events;
the memories keep their canonical form. -/
theorem memWrite_state {ea v : Word} {n : Width} {s t : State} (h : memWrite ea n v s = .ok t) :
    t = { s with ram := t.ram, scratch := t.scratch, cacheCtrl := t.cacheCtrl, diag := t.diag, events := t.events } ∧
    (s.memoriesWf → t.memoriesWf) ∧
    ∃ ds es, t.diag = s.diag ++ ds ∧ t.events = s.events ++ es ∧ ds.length + es.length ≤ 1 := by
  unfold memWrite scratchWrite cacheCtrlWrite at h
  simp only at h
  split_ifs at h
  · obtain rfl := by simpa using h
    exact ⟨rfl, fun hw => ⟨hw.1, hw.2.1, Memory.wf_writeLE hw.2.2 _ _ _⟩, [], [], by simp⟩
  · obtain rfl := by simpa using h
    exact ⟨rfl, id, [], [], by simp⟩
  · obtain rfl := by simpa using h
    exact ⟨rfl, id, [_], [], rfl, by simp, by simp⟩
  · obtain ⟨h1, h2, h3⟩ := busWrite_state h
    refine ⟨?_, fun hw => ⟨h2 hw.1, ?_⟩, h3⟩
    · rw [h1]
    · rw [h1]; exact hw.2

/-! ## The canonical form -/

/-- The memories of the machine right after reset are in canonical form. -/
theorem reset_memoriesWf : State.reset.memoriesWf := ⟨Memory.wf_nil, Memory.wf_nil, Memory.wf_nil⟩

theorem memRead_memoriesWf {ea v : Word} {n : Width} {s t : State} (h : memRead ea n s = .ok (v, t))
    (hw : s.memoriesWf) : t.memoriesWf := by
  rw [(memRead_state h).1]; exact hw

theorem fetch_memoriesWf {a v : Word} {s t : State} (h : fetch a s = .ok (v, t)) (hw : s.memoriesWf) :
    t.memoriesWf := by
  rw [(fetch_state h).1]; exact hw

theorem memWrite_memoriesWf {ea v : Word} {n : Width} {s t : State} (h : memWrite ea n v s = .ok t)
    (hw : s.memoriesWf) : t.memoriesWf := (memWrite_state h).2.1 hw

/-- Loading bytes into RAM or ROM from outside keeps the canonical form. -/
theorem loadRam_memoriesWf {s : State} (off : Nat) (bs : List Byte) (hw : s.memoriesWf) :
    (s.loadRam off bs).memoriesWf := ⟨Memory.wf_load hw.1 _ _, hw.2⟩

theorem loadRom_memoriesWf {s : State} (off : Nat) (bs : List Byte) (hw : s.memoriesWf) :
    (s.loadRom off bs).memoriesWf := ⟨hw.1, Memory.wf_load hw.2.1 _ _, hw.2.2⟩

theorem withFetchWord_memoriesWf {s : State} (nbits w : Nat) (hw : s.memoriesWf) :
    (s.withFetchWord nbits w).memoriesWf := by
  unfold State.withFetchWord
  simp only
  split
  · exact loadRam_memoriesWf _ _ hw
  · exact loadRom_memoriesWf _ _ hw
  · exact hw

/-- A reset of a running machine keeps the ROM image, and with it the canonical form. -/
theorem hostReset_memoriesWf {s : State} (hw : s.memoriesWf) : s.hostReset.memoriesWf :=
  ⟨Memory.wf_nil, hw.2.1, Memory.wf_nil⟩

/-! ## Bytes of words -/

theorem Width.mask_getLsbD (n : Width) (i : Nat) : n.mask.getLsbD i = decide (i < 8 * n.bytes) := by
  cases n with
  | byte =>
    by_cases h : i < 32
    · simp only [Width.mask, Width.bytes]; interval_cases i <;> rfl
    · rw [BitVec.getLsbD_of_ge _ _ (by omega)]; simp only [Width.bytes]; symm; exact decide_eq_false (by omega)
  | half =>
    by_cases h : i < 32
    · simp only [Width.mask, Width.bytes]; interval_cases i <;> rfl
    · rw [BitVec.getLsbD_of_ge _ _ (by omega)]; simp only [Width.bytes]; symm; exact decide_eq_false (by omega)
  | word =>
    by_cases h : i < 32
    · simp only [Width.mask, Width.bytes]; interval_cases i <;> rfl
    · rw [BitVec.getLsbD_of_ge _ _ (by omega)]; simp only [Width.bytes]; symm; exact decide_eq_false (by omega)

/-- A value fits a width when its bits above it are clear. -/
theorem fits_iff (v : Word) (n : Width) :
    v &&& ~~~n.mask = 0 ↔ ∀ i, i < 32 → 8 * n.bytes ≤ i → v.getLsbD i = false := by
  constructor
  · intro h i hi hn
    have h1 : (v &&& ~~~n.mask).getLsbD i = false := by rw [h]; simp
    have h2 : ¬ i < 8 * n.bytes := by omega
    rw [BitVec.getLsbD_and, BitVec.getLsbD_not, Width.mask_getLsbD] at h1
    simpa [hi, h2] using h1
  · intro h
    apply BitVec.eq_of_getLsbD_eq
    intro i hi
    by_cases hn : 8 * n.bytes ≤ i
    · simp [h i hi hn]
    · simp [Width.mask_getLsbD, hi, Nat.lt_of_not_le hn]

theorem masked_fits (v : Word) (n : Width) : (v &&& n.mask) &&& ~~~n.mask = 0 := by
  rw [fits_iff]
  intro i hi hn
  simp [Width.mask_getLsbD, Nat.not_lt.2 hn]

/-- The value of `n` bytes read from a memory fits the width. -/
theorem readLE_fits (m : Memory) (a : Nat) (n : Width) : Memory.readLE m a n.bytes &&& ~~~n.mask = 0 := by
  rw [fits_iff]
  intro i hi hn
  rw [Memory.getLsbD_readLE m a _ _ n.bytes_le]
  simp [Nat.not_lt.2 hn]

/-- Byte `k` of the value read is the byte at its address. -/
theorem byteOf_readLE (m : Memory) (a : Nat) {n : Width} {k : Nat} (hk : k < n.bytes) :
    byteOf (Memory.readLE m a n.bytes) k = Memory.read m (a + k) := Memory.extract_readLE m a n.bytes_le hk

/-- Byte `k` of a masked value is byte `k` of the value. -/
theorem byteOf_mask (v : Word) {n : Width} {k : Nat} (hk : k < n.bytes) :
    ((v &&& n.mask) >>> (8 * k)).setWidth 8 = byteOf v k := by
  apply BitVec.eq_of_getLsbD_eq
  intro i hi
  have h : 8 * k + i < 8 * n.bytes := by omega
  simp [byteOf, hi, Width.mask_getLsbD, h]

/-- Byte `k` of a lane of a register is the register's byte at that offset. -/
theorem byteOf_wordLane (w : Word) (off : Nat) {n : Width} {k : Nat} (hk : k < n.bytes) :
    byteOf (wordLane w off n) k = (wordLane w (off + k) .byte).setWidth 8 := by
  apply BitVec.eq_of_getLsbD_eq
  intro i hi
  have h : 8 * k + i < 8 * n.bytes := by omega
  have h2 : 8 * off + (8 * k + i) = 8 * (off + k) + i := by omega
  have h3 : i < 8 * Width.byte.bytes := hi
  simp [byteOf, wordLane, hi, Width.mask_getLsbD, h, h2, h3]

theorem wordLane_fits (w : Word) (off : Nat) (n : Width) : wordLane w off n &&& ~~~n.mask = 0 := masked_fits _ _

theorem getLsbD_setWordLane (w : Word) (off : Nat) (n : Width) (v : Word) {i : Nat} (hi : i < 32) :
    (setWordLane w off n v).getLsbD i =
      if 8 * off ≤ i ∧ i < 8 * (off + n.bytes) then v.getLsbD (i - 8 * off) else w.getLsbD i := by
  simp only [setWordLane, BitVec.getLsbD_or, BitVec.getLsbD_and, BitVec.getLsbD_not, BitVec.getLsbD_shiftLeft,
    Width.mask_getLsbD]
  split_ifs with h
  · have h1 : ¬ i < 8 * off := by omega
    have h2 : i - 8 * off < 8 * n.bytes := by omega
    simp [hi, h1, h2]
  · by_cases h1 : i < 8 * off
    · simp [hi, h1]
    · have h2 : ¬ i - 8 * off < 8 * n.bytes := by omega
      simp [hi, h1, h2]

/-- A lane written reads back byte by byte. -/
theorem wordLane_setWordLane (w : Word) {off : Nat} {n : Width} (v : Word) {k : Nat} (hk : k < n.bytes)
    (hoff : off + n.bytes ≤ 4) :
    (wordLane (setWordLane w off n v) (off + k) .byte).setWidth 8 = byteOf v k := by
  apply BitVec.eq_of_getLsbD_eq
  intro i hi
  have h1 : 8 * (off + k) + i < 32 := by omega
  have h2 : 8 * off ≤ 8 * (off + k) + i ∧ 8 * (off + k) + i < 8 * (off + n.bytes) := by omega
  have h3 : 8 * (off + k) + i - 8 * off = 8 * k + i := by omega
  have h4 : i < 8 * Width.byte.bytes := hi
  simp [byteOf, wordLane, hi, Width.mask_getLsbD, h4, getLsbD_setWordLane _ _ _ _ h1, h2, h3]

/-- The other bytes of the register stay. -/
theorem wordLane_setWordLane_outside (w : Word) {off : Nat} {n : Width} (v : Word) {j : Nat} (hj : j < 4)
    (h : j < off ∨ off + n.bytes ≤ j) :
    wordLane (setWordLane w off n v) j .byte = wordLane w j .byte := by
  apply BitVec.eq_of_getLsbD_eq
  intro i hi
  by_cases h8 : i < 8 * Width.byte.bytes
  · have h9 : i < 8 := h8
    have h1 : 8 * j + i < 32 := by omega
    have h2 : ¬(8 * off ≤ 8 * j + i ∧ 8 * j + i < 8 * (off + n.bytes)) := by omega
    simp [wordLane, Width.mask_getLsbD, getLsbD_setWordLane _ _ _ _ h1, h2]
  · simp [wordLane, Width.mask_getLsbD, h8]

/-! ## What a byte of memory reads as -/

theorem peek_congr {s t : State} (hc : t.cfg = s.cfg) (hr : t.ram = s.ram) (ho : t.rom = s.rom)
    (hs : t.scratch = s.scratch) (hk : t.cacheCtrl = s.cacheCtrl) (a : Word) : t.peek a = s.peek a := by
  simp only [State.peek, hc, hr, ho, hs, hk]

/-- States with the same memories read the same everywhere. -/
theorem memoryKept_of {s t : State} (hc : t.cfg = s.cfg) (hr : t.ram = s.ram) (ho : t.rom = s.rom)
    (hs : t.scratch = s.scratch) (hk : t.cacheCtrl = s.cacheCtrl) : memoryKept s t :=
  fun a => peek_congr hc hr ho hs hk a

/-- A read keeps every byte. -/
theorem memRead_memoryKept {ea v : Word} {n : Width} {s t : State} (h : memRead ea n s = .ok (v, t)) :
    memoryKept s t := by
  have h1 := (memRead_state h).1
  apply memoryKept_of <;> rw [h1]

theorem peek_scratch {s : State} {p : Word} (h : inScratch s.cfg p = true) :
    s.peek p = some (Memory.read s.scratch (p.toNat - s.cfg.scratchBase)) := by
  simp [State.peek, h]

theorem peek_cacheCtrl {s : State} {p : Word} (h : inScratch s.cfg p = false) (h2 : inCacheCtrl s.cfg p = true) :
    s.peek p = some ((wordLane s.cacheCtrl (p.toNat - s.cfg.cacheCtrlAddr) .byte).setWidth 8) := by
  simp [State.peek, h, h2]

theorem peek_ram {s : State} {p : Word} {r : BusRange} (h : inScratch s.cfg p = false)
    (h2 : inCacheCtrl s.cfg p = false) (h3 : rangeAt s.cfg p = some r) (h4 : r.device = .ram) :
    s.peek p = some (Memory.read s.ram (p.toNat - r.base)) := by
  obtain ⟨b, z, d⟩ := r
  simp only at h4
  subst h4
  simp [State.peek, h, h2, h3]

theorem peek_rom {s : State} {p : Word} {r : BusRange} (h : inScratch s.cfg p = false)
    (h2 : inCacheCtrl s.cfg p = false) (h3 : rangeAt s.cfg p = some r) (h4 : r.device = .rom) :
    s.peek p = some (Memory.read s.rom (p.toNat - r.base)) := by
  obtain ⟨b, z, d⟩ := r
  simp only at h4
  subst h4
  simp [State.peek, h, h2, h3]

/-! ## What an aligned access does -/

/-- An aligned data read answers, from every place, what `ReadGives` says. -/
theorem memRead_gives {s : State} {ea : Word} {n : Width} (hm : s.cfg.mapOk) (ha : ea.toNat % n.bytes = 0) :
    ∃ v t, memRead ea n s = .ok (v, t) ∧ ReadGives n ea s v t := by
  have hp := translate_aligned s.cfg ea n ha
  unfold memRead ReadGives
  simp only
  generalize translate s.cfg ea = p at hp
  have hbyte : ∀ {k}, k < n.bytes → (p + BitVec.ofNat 32 k).toNat = p.toNat + k ∧
      (p + BitVec.ofNat 32 k).toNat / 4 = p.toNat / 4 := fun hk => by
    obtain ⟨h1, h2⟩ := aligned_byte hp hk
    exact ⟨h1, by rw [h1, h2]⟩
  by_cases hs : inScratch s.cfg p = true
  · have hpl : placeOf s.cfg p = .cpuLocal := by simp [placeOf, hs]
    have hfit := scratch_fits hm hp hs
    have hlo : s.cfg.scratchBase ≤ p.toNat := (of_decide_eq_true hs).1
    rw [if_pos hs, hpl]
    refine ⟨_, s, by rw [scratchRead, if_neg (by omega)], fun k hk => ?_, readLE_fits _ _ _, rfl, rfl, rfl⟩
    obtain ⟨h1, h2⟩ := hbyte hk
    rw [peek_scratch (by rw [inScratch_sameWord hm h2, hs]), h1, byteOf_readLE _ _ hk]
    congr 2; omega
  · have hs' : inScratch s.cfg p = false := by simpa using hs
    rw [if_neg hs]
    by_cases hc : inCacheCtrl s.cfg p = true
    · have hpl : placeOf s.cfg p = .cpuLocal := by simp [placeOf, hc]
      have hfit := cacheCtrl_fits hm hp hc
      have hlo : s.cfg.cacheCtrlAddr ≤ p.toNat := (of_decide_eq_true hc).1
      rw [if_pos hc, hpl]
      refine ⟨_, s, by rw [cacheCtrlRead, if_neg (by omega)], fun k hk => ?_, wordLane_fits _ _ _, rfl, rfl, rfl⟩
      obtain ⟨h1, h2⟩ := hbyte hk
      rw [peek_cacheCtrl (by rw [inScratch_sameWord hm h2, hs']) (by rw [inCacheCtrl_sameWord hm h2, hc]), h1,
        byteOf_wordLane _ _ hk]
      congr 3; omega
    · have hc' : inCacheCtrl s.cfg p = false := by simpa using hc
      rw [if_neg hc]
      unfold busRead
      cases hr : rangeAt s.cfg p with
      | none =>
        have hpl : placeOf s.cfg p = .nowhere := by simp [placeOf, hs', hc', hr]
        rw [hpl]
        exact ⟨_, _, rfl, rfl, rfl, rfl, rfl⟩
      | some r =>
        have hfit := not_spansRange hm hp hr
        have hlo := (rangeAt_some hr).2.1
        have hsp : spansRange r p n = false := by simp [spansRange]; omega
        simp only [hsp, Bool.false_eq_true, if_false]
        cases hd : r.device with
        | ram =>
          have hpl : placeOf s.cfg p = .ram := by simp [placeOf, hs', hc', hr, hd]
          rw [hpl]
          refine ⟨_, s, rfl, fun k hk => ?_, readLE_fits _ _ _, rfl, rfl, rfl⟩
          obtain ⟨h1, h2⟩ := hbyte hk
          rw [peek_ram (by rw [inScratch_sameWord hm h2, hs']) (by rw [inCacheCtrl_sameWord hm h2, hc'])
            (by rw [rangeAt_sameWord hm h2, hr]) hd, h1, byteOf_readLE _ _ hk]
          congr 2; omega
        | rom =>
          have hpl : placeOf s.cfg p = .rom := by simp [placeOf, hs', hc', hr, hd]
          rw [hpl]
          refine ⟨_, s, rfl, fun k hk => ?_, readLE_fits _ _ _, rfl, rfl, rfl⟩
          obtain ⟨h1, h2⟩ := hbyte hk
          rw [peek_rom (by rw [inScratch_sameWord hm h2, hs']) (by rw [inCacheCtrl_sameWord hm h2, hc'])
            (by rw [rangeAt_sameWord hm h2, hr]) hd, h1, byteOf_readLE _ _ hk]
          congr 2; omega
        | peripheral d =>
          have hpl : placeOf s.cfg p = .device d := by simp [placeOf, hs', hc', hr, hd]
          rw [hpl]
          exact ⟨_, _, rfl, masked_fits _ _, rfl, rfl⟩

/-- An aligned data write does, in every place, what `WriteDoes` says. -/
theorem memWrite_does {s : State} {ea : Word} {n : Width} (v : Word) (hm : s.cfg.mapOk) (hw : s.memoriesWf)
    (ha : ea.toNat % n.bytes = 0) :
    ∃ t, memWrite ea n (v &&& n.mask) s = .ok t ∧ WriteDoes n ea v s t := by
  have hp := translate_aligned s.cfg ea n ha
  unfold memWrite WriteDoes
  simp only
  generalize translate s.cfg ea = p at hp
  have hbyte : ∀ {k}, k < n.bytes → (p + BitVec.ofNat 32 k).toNat = p.toNat + k ∧
      (p + BitVec.ofNat 32 k).toNat / 4 = p.toNat / 4 := fun hk => by
    obtain ⟨h1, h2⟩ := aligned_byte hp hk
    exact ⟨h1, by rw [h1, h2]⟩
  have hkept : ∀ t : State, t.cfg = s.cfg → t.ram = s.ram → t.rom = s.rom → t.scratch = s.scratch →
      t.cacheCtrl = s.cacheCtrl → memoryKept s t := fun _ h1 h2 h3 h4 h5 => memoryKept_of h1 h2 h3 h4 h5
  by_cases hs : inScratch s.cfg p = true
  · have hpl : placeOf s.cfg p = .cpuLocal := by simp [placeOf, hs]
    have hfit := scratch_fits hm hp hs
    have hlo : s.cfg.scratchBase ≤ p.toNat := (of_decide_eq_true hs).1
    rw [if_pos hs, hpl]
    rw [scratchWrite, if_neg (by omega)]
    refine ⟨_, rfl, fun k hk => ?_, fun a hout => ?_, rfl, rfl, rfl⟩
    · obtain ⟨h1, h2⟩ := hbyte hk
      rw [peek_scratch (by simpa using (inScratch_sameWord hm h2).trans hs)]
      simp only [h1]
      rw [show p.toNat + k - s.cfg.scratchBase = p.toNat - s.cfg.scratchBase + k by omega,
        Memory.read_writeLE hw.2.2 _ _ hk, byteOf_mask _ hk]
    · simp only [State.peek]
      split_ifs with h1
      · have h2 := (of_decide_eq_true h1).1
        rw [Memory.read_writeLE_outside hw.2.2 _ (by omega)]
      all_goals rfl
  · have hs' : inScratch s.cfg p = false := by simpa using hs
    rw [if_neg hs]
    by_cases hc : inCacheCtrl s.cfg p = true
    · have hpl : placeOf s.cfg p = .cpuLocal := by simp [placeOf, hc]
      have hfit := cacheCtrl_fits hm hp hc
      have hlo : s.cfg.cacheCtrlAddr ≤ p.toNat := (of_decide_eq_true hc).1
      rw [if_pos hc, hpl]
      rw [cacheCtrlWrite, if_neg (by omega)]
      refine ⟨_, rfl, fun k hk => ?_, fun a hout => ?_, rfl, rfl, rfl⟩
      · obtain ⟨h1, h2⟩ := hbyte hk
        rw [peek_cacheCtrl (by simpa using (inScratch_sameWord hm h2).trans hs')
          (by simpa using (inCacheCtrl_sameWord hm h2).trans hc)]
        simp only [h1]
        rw [show p.toNat + k - s.cfg.cacheCtrlAddr = p.toNat - s.cfg.cacheCtrlAddr + k by omega,
          wordLane_setWordLane _ _ hk hfit, ← byteOf_mask _ hk, BitVec.and_assoc, BitVec.and_self,
          byteOf_mask _ hk]
      · simp only [State.peek]
        split_ifs with h1 h2
        · rfl
        · have h3 := of_decide_eq_true h2
          rw [wordLane_setWordLane_outside _ _ (by omega) (by omega)]
        · rfl
    · have hc' : inCacheCtrl s.cfg p = false := by simpa using hc
      rw [if_neg hc]
      by_cases hi : s.isolated = true
      · rw [if_pos hi]
        refine ⟨_, rfl, ?_⟩
        have hpl : placeOf s.cfg p ≠ .cpuLocal := by
          simp only [placeOf, hs', hc', Bool.or_self, Bool.false_eq_true, if_false]
          split
          · simp
          · split <;> simp
        cases hpl' : placeOf s.cfg p <;> first
          | exact absurd hpl' hpl
          | (simp only [hi, if_true]; exact ⟨hkept _ rfl rfl rfl rfl rfl, rfl, rfl, rfl⟩)
      · rw [if_neg hi]
        unfold busWrite
        cases hr : rangeAt s.cfg p with
        | none =>
          have hpl : placeOf s.cfg p = .nowhere := by simp [placeOf, hs', hc', hr]
          rw [hpl]
          simp only [hi]
          exact ⟨_, rfl, hkept _ rfl rfl rfl rfl rfl, rfl, rfl, rfl⟩
        | some r =>
          have hfit := not_spansRange hm hp hr
          obtain ⟨hmem, hlo, -⟩ := rangeAt_some hr
          have hsp : spansRange r p n = false := by simp [spansRange]; omega
          simp only [hsp, Bool.false_eq_true, if_false]
          cases hd : r.device with
          | ram =>
            have hpl : placeOf s.cfg p = .ram := by simp [placeOf, hs', hc', hr, hd]
            rw [hpl]
            simp only [hi]
            refine ⟨_, rfl, fun k hk => ?_, fun a hout => ?_, rfl, rfl, rfl⟩
            · obtain ⟨h1, h2⟩ := hbyte hk
              rw [peek_ram (r := r) (by simpa using (inScratch_sameWord hm h2).trans hs')
                (by simpa using (inCacheCtrl_sameWord hm h2).trans hc')
                (by simpa using (rangeAt_sameWord hm h2).trans hr) hd]
              simp only [h1]
              rw [show p.toNat + k - r.base = p.toNat - r.base + k by omega,
                Memory.read_writeLE hw.1 _ _ hk, byteOf_mask _ hk]
            · simp only [State.peek]
              split_ifs with h1 h2
              · rfl
              · rfl
              · split
                · rename_i b z hq
                  have hq' := rangeAt_some hq
                  have := ram_unique hm hmem hq'.1 hd rfl
                  subst this
                  have h3 := hq'.2.1
                  simp only at h3 hlo hout ⊢
                  rw [Memory.read_writeLE_outside hw.1 _ (by omega)]
                · rfl
                · rfl
          | rom =>
            have hpl : placeOf s.cfg p = .rom := by simp [placeOf, hs', hc', hr, hd]
            rw [hpl]
            simp only [hi]
            exact ⟨_, rfl, hkept _ rfl rfl rfl rfl rfl, rfl, rfl, rfl⟩
          | peripheral d =>
            have hpl : placeOf s.cfg p = .device d := by simp [placeOf, hs', hc', hr, hd]
            rw [hpl]
            simp only [hi]
            exact ⟨_, rfl, hkept _ rfl rfl rfl rfl rfl, rfl, by simp [deviceWrite, BitVec.and_assoc], rfl⟩

/-! ## Loads and stores: every way they can end in a next state -/

theorem loadWith_next {n : Width} {ea : Word} {deliver : Word → State → State} {s t : State}
    (h : loadWith n ea deliver s = .next t) :
    (misaligned n ea = true ∧ t = s.enter .adEL (some ea)) ∨
    (misaligned n ea = false ∧ ∃ v u, memRead ea n s = .ok (v, u) ∧ t = deliver v u) := by
  unfold loadWith raise at h
  split_ifs at h with hm
  · simp only [Host.Outcome.next.injEq] at h
    exact .inl ⟨hm, h.symm⟩
  · split at h
    · simp only [Host.Outcome.next.injEq] at h
      exact .inr ⟨by simpa using hm, _, _, ‹_›, h.symm⟩
    · cases h

theorem storeWith_next {n : Width} {ea v : Word} {s t : State} (h : storeWith n ea v s = .next t) :
    (misaligned n ea = true ∧ t = s.enter .adES (some ea)) ∨
    (misaligned n ea = false ∧ memWrite ea n (v &&& n.mask) s = .ok t) := by
  unfold storeWith raise at h
  split_ifs at h with hm
  · simp only [Host.Outcome.next.injEq] at h
    exact .inl ⟨hm, h.symm⟩
  · split at h
    · simp only [Host.Outcome.next.injEq] at h
      subst h
      exact .inr ⟨by simpa using hm, ‹_›⟩
    · cases h

theorem loadUnaligned_next {ea : Word} {rt : Reg} {merge : Word → Word → Word → Word} {s t : State}
    (h : loadUnaligned ea rt merge s = .next t) :
    ∃ w u, memRead (alignedWord ea) .word s = .ok (w, u) ∧
      ((s.cfg.unalignedMode = .approx ∧ t = u.setReg rt w) ∨
        (s.cfg.unalignedMode = .exact ∧ t = u.setReg rt (merge ea (s.getReg rt) w))) := by
  unfold loadUnaligned at h
  split at h
  · refine ⟨_, _, ‹_›, ?_⟩
    split at h <;> simp only [Host.Outcome.next.injEq] at h
    · exact .inl ⟨‹_›, h.symm⟩
    · exact .inr ⟨‹_›, h.symm⟩
  · cases h

theorem storePartial_next {ea r : Word} {merge : Word → Word → Word → Word} {s t : State}
    (h : storePartial ea r merge s = .next t) :
    reachesDevice s (alignedWord ea) = false ∧ ∃ m u, memRead (alignedWord ea) .word s = .ok (m, u) ∧
      memWrite (alignedWord ea) .word (merge ea r m) u = .ok t := by
  unfold storePartial at h
  split_ifs at h with hd
  refine ⟨by simpa using hd, ?_⟩
  split at h
  · split at h
    · simp only [Host.Outcome.next.injEq] at h
      subst h
      exact ⟨_, _, ‹_›, ‹_›⟩
    · cases h
  · cases h

theorem storeUnaligned_next {ea : Word} {rt : Reg} {merge : Word → Word → Word → Word} {s t : State}
    (h : storeUnaligned ea rt merge s = .next t) :
    (s.cfg.unalignedMode = .approx ∧ memWrite (alignedWord ea) .word (s.getReg rt) s = .ok t) ∨
    (s.cfg.unalignedMode = .exact ∧ storePartial ea (s.getReg rt) merge s = .next t) := by
  unfold storeUnaligned at h
  split at h
  · split at h
    · simp only [Host.Outcome.next.injEq] at h
      subst h
      exact .inl ⟨‹_›, ‹_›⟩
    · cases h
  · exact .inr ⟨‹_›, h⟩

/-! ## The merges of the unaligned accesses, byte by byte (R351, R352) -/

theorem word_ext_bytes {a b : Word} (h : ∀ j, j < 4 → byteOf a j = byteOf b j) : a = b := by
  apply BitVec.eq_of_getLsbD_eq
  intro i hi
  have h1 := congrArg (fun (v : Byte) => v.getLsbD (i % 8)) (h (i / 8) (by omega))
  have h2 : i % 8 < 8 := by omega
  have h3 : 8 * (i / 8) + i % 8 = i := by omega
  simpa [byteOf, h2, h3] using h1

theorem byteOf_wordOf (f : Nat → Byte) {j : Nat} (hj : j < 4) : byteOf (wordOf f) j = f j := by
  apply BitVec.eq_of_getLsbD_eq
  intro i hi
  simp only [byteOf, wordOf, wordOfBytes, BitVec.getLsbD_extractLsb', BitVec.getLsbD_append, hi, decide_true,
    Bool.true_and]
  interval_cases j <;> interval_cases i <;> rfl

theorem mod_four_cases (n : Nat) : n % 4 = 0 ∨ n % 4 = 1 ∨ n % 4 = 2 ∨ n % 4 = 3 := by omega

theorem mergeLwl_bytes (ea r m : Word) :
    mergeLwl ea r m =
      wordOf fun j => if 3 ≤ j + ea.toNat % 4 then byteOf m (j + ea.toNat % 4 - 3) else byteOf r j := by
  apply word_ext_bytes
  intro j hj
  rw [byteOf_wordOf _ hj]
  apply BitVec.eq_of_getLsbD_eq
  intro i hi
  rcases mod_four_cases ea.toNat with h | h | h | h <;>
    (simp only [mergeLwl, laneShift, h]; interval_cases j <;> interval_cases i <;> simp [byteOf])

theorem mergeLwr_bytes (ea r m : Word) :
    mergeLwr ea r m =
      wordOf fun j => if j + ea.toNat % 4 ≤ 3 then byteOf m (j + ea.toNat % 4) else byteOf r j := by
  apply word_ext_bytes
  intro j hj
  rw [byteOf_wordOf _ hj]
  apply BitVec.eq_of_getLsbD_eq
  intro i hi
  rcases mod_four_cases ea.toNat with h | h | h | h <;>
    (simp only [mergeLwr, laneShift, h]; interval_cases j <;> interval_cases i <;> simp [byteOf])

theorem mergeSwl_bytes (ea r m : Word) :
    mergeSwl ea r m =
      wordOf fun j => if j ≤ ea.toNat % 4 then byteOf r (3 - ea.toNat % 4 + j) else byteOf m j := by
  apply word_ext_bytes
  intro j hj
  rw [byteOf_wordOf _ hj]
  apply BitVec.eq_of_getLsbD_eq
  intro i hi
  rcases mod_four_cases ea.toNat with h | h | h | h <;>
    (simp only [mergeSwl, laneShift, h]; interval_cases j <;> interval_cases i <;> simp [byteOf])

theorem mergeSwr_bytes (ea r m : Word) :
    mergeSwr ea r m =
      wordOf fun j => if ea.toNat % 4 ≤ j then byteOf r (j - ea.toNat % 4) else byteOf m j := by
  apply word_ext_bytes
  intro j hj
  rw [byteOf_wordOf _ hj]
  apply BitVec.eq_of_getLsbD_eq
  intro i hi
  rcases mod_four_cases ea.toNat with h | h | h | h <;>
    (simp only [mergeSwr, laneShift, h]; interval_cases j <;> interval_cases i <;> simp [byteOf])

/-! ## Accesses and frames -/

/-- What a read leaves is within a footprint that names the diagnostics and the devices. -/
theorem frame_memRead {ea v : Word} {n : Width} {s t : State} {f : Footprint}
    (h : memRead ea n s = .ok (v, t)) (hd : f.diag = true) (he : f.devices = true) : Frame f s t := by
  rw [(memRead_state h).1]
  simp [Frame, State.getReg, State.getCop0, hd, he]

/-- The same for a write, memory apart. -/
theorem frame_memWrite {ea v : Word} {n : Width} {s t : State} {f : Footprint}
    (h : memWrite ea n v s = .ok t) (hd : f.diag = true) (he : f.devices = true) : Frame f s t := by
  rw [(memWrite_state h).1]
  simp [Frame, State.getReg, State.getCop0, hd, he]

/-- Writing a register the footprint names keeps the frame. -/
theorem frame_setReg {s t : State} {f : Footprint} (h : Frame f s t) {r : Reg} (v : Word) (hr : r ∈ f.regs) :
    Frame f s (t.setReg r v) := by
  obtain ⟨h1, h2⟩ := h
  refine ⟨fun q hq => ?_, by simpa using h2⟩
  have hne : q ≠ r := fun e => hq (e ▸ hr)
  rw [getReg_setReg_ne _ _ hne, h1 q hq]

theorem memoryKept_setReg {s t : State} {r : Reg} {v : Word} (h : memoryKept s t) :
    memoryKept s (t.setReg r v) := fun a => by
  rw [← h a]
  apply peek_congr <;> simp

theorem readGives_setReg {n : Width} {ea v w : Word} {s t : State} {r : Reg} (h : ReadGives n ea s v t) :
    ReadGives n ea s v (t.setReg r w) := by
  simpa [ReadGives] using h

/-- An instruction that is one register write completes as `WritesReg` says. -/
theorem writesReg_setReg {i : Instr} {s : State} {r : Reg} {v : Word}
    (h : exec i s = .next (s.setReg r v)) : WritesReg i s r v := by
  refine ⟨_, h, by simp [written], ⟨fun q hq => ?_, by simp⟩, ?_⟩
  · rw [getReg_setReg_ne _ _ (by simpa using hq)]
  · apply memoryKept_of <;> simp

end Sys2Proof.Machine
end

