-- ==== Sys2Proof/Laws/Step.lean ====
section
/-! SUPPORT. Every way a step can answer a next state, phase by phase. -/

namespace Sys2Proof.Machine

/-- A step that answers: held, or the phases after the inputs are sampled (R300, R301). -/
theorem step_next {s t : State} (h : step s = .next t) :
    s.atHaltPc = false ∧
    ((s.held = true ∧ t = s.sample) ∨ (s.held = false ∧ runPhases s.sample = .next t)) := by
  unfold step at h
  split_ifs at h with h1 h2
  · simp only [Host.Outcome.next.injEq] at h
    exact ⟨by simpa using h1, .inl ⟨h2, h.symm⟩⟩
  · exact ⟨by simpa using h1, .inr ⟨by simpa using h2, h⟩⟩

/-- The phases: an interrupt, a fetch address error, or the word fetched (R302, R303). -/
theorem runPhases_next {s t : State} (h : runPhases s = .next t) :
    (s.updateIp2.takesInterrupt = true ∧ t = s.updateIp2.interrupted) ∨
    (s.updateIp2.takesInterrupt = false ∧ s.updateIp2.misalignedPc = true ∧ t = s.updateIp2.fetchError) ∨
    (s.updateIp2.takesInterrupt = false ∧ s.updateIp2.misalignedPc = false ∧
      ∃ w u, fetch s.pc s.updateIp2 = .ok (w, u) ∧ runWord w (u.advance w) = .next t) := by
  unfold runPhases at h
  simp only at h
  split_ifs at h with h1 h2
  · simp only [Host.Outcome.next.injEq] at h
    exact .inl ⟨h1, h.symm⟩
  · simp only [Host.Outcome.next.injEq] at h
    exact .inr (.inl ⟨by simpa using h1, h2, h.symm⟩)
  · split at h
    · cases h
    · exact .inr (.inr ⟨by simpa using h1, by simpa using h2, _, _, ‹_›, h⟩)

/-- The word: the nop, or the instruction after its bookkeeping (R305, R306, R312, R631). -/
theorem runWord_next {w : Word} {s t : State} (h : runWord w s = .next t) :
    (w = 0 ∧ t = s.noteHazards (decodeWord w)) ∨
    (w ≠ 0 ∧ refusalBefore (decodeWord w) s = none ∧
      exec (decodeWord w) (s.noteHazards (decodeWord w)) = .next t) := by
  unfold runWord at h
  split_ifs at h with h1
  · simp only [Host.Outcome.next.injEq] at h
    exact .inl ⟨h1, h.symm⟩
  · split at h
    · cases h
    · exact .inr ⟨h1, ‹_›, h⟩

/-- The nop, run as the instruction it decodes to, does what the skipped nop does (R305). -/
theorem exec_nop (s : State) : exec (decodeWord 0) s = .next s := by
  have h : decodeWord 0 = .sll 0 0 0 := by decide
  rw [h]
  rfl

/-- A step that gets as far as a word runs it. -/
theorem step_of_reaches {s u : State} {w : Word} (h : Reaches s w u) : step s = runWord w u := by
  obtain ⟨h1, h2, h3, h4, v, h5, rfl⟩ := h
  have h6 : s.sample.updateIp2.misalignedPc = false := by
    simp [State.misalignedPc, misaligned, Width.bytes, h4]
  unfold step runPhases
  simp only [h1, h2, h3, h6, Bool.false_eq_true, if_false, updateIp2_pc, sample_pc, h5]

end Sys2Proof.Machine
end

