-- ==== Sys2Proof/Machine/FixedPoint.lean ====
section
/-! DEFINITION. The contract of the FixedPoint type (46_gte_commands.md R470-R476): a raw integer read with a
number of fraction bits. It is no hardware state (R470) and no instruction uses it; results are exact integers,
since a result outside the backing width is not defined (R473). -/

namespace Sys2Proof.Machine

/-- Rounds a rational to the nearest integer, halves away from zero (R471). -/
def roundHalfAway (x : ℚ) : ℤ := if 0 ≤ x then ⌊x + 1 / 2⌋ else -⌊-x + 1 / 2⌋

/-- Construction from an integer (R471). -/
def fixedOfInt (frac : ℕ) (n : ℤ) : ℤ := n * 2 ^ frac

/-- Construction from a boolean (R471). -/
def fixedOfBool (frac : ℕ) (b : Bool) : ℤ := if b then 2 ^ frac else 0

/-- Construction from a real, here a rational (R471). -/
def fixedOfRat (frac : ℕ) (x : ℚ) : ℤ := roundHalfAway (x * 2 ^ frac)

/-- Conversion between splits, with no wrap (R472). -/
def fixedConvert (frac frac' : ℕ) (r : ℤ) : ℤ :=
  if frac ≤ frac' then r * 2 ^ (frac' - frac) else r / 2 ^ (frac - frac')

/-- Addition and subtraction on raw values (R473). -/
def fixedAdd (r r' : ℤ) : ℤ := r + r'
def fixedSub (r r' : ℤ) : ℤ := r - r'

/-- Multiplication: the exact product, shifted right (R474). -/
def fixedMul (frac : ℕ) (r r' : ℤ) : ℤ := (r * r') / 2 ^ frac

/-- Division: the dividend scaled first, the quotient truncated toward zero; a zero divisor is outside the
contract (R475). -/
def fixedDiv (frac : ℕ) (r r' : ℤ) : ℤ := (r * 2 ^ frac).tdiv r'

/-- Conversion to an integer: shifted right (R476). -/
def fixedToInt (frac : ℕ) (r : ℤ) : ℤ := r / 2 ^ frac

/-- Conversion to a rational (R476). -/
def fixedToRat (frac : ℕ) (r : ℤ) : ℚ := (r : ℚ) / 2 ^ frac

end Sys2Proof.Machine
end

