-- ==== Sys2Proof/Tests/Slice0.lean ====
section
/-! SUPPORT. Tests: ill-formed terms, the decoding of every constructor from a word written out from the spec's
encoding of it, the spec's vectors (95_test_vectors.md) run for one step, and a witness for the hypotheses of
every statement that has some. -/

namespace Sys2Proof

/-! ## WellFormed: the terms the checks refuse, and their neighbours that pass -/

/-- 0x01 is RTPS (30_encoding.md R183), so no word is the unknown command 0x01; 0x00 is unassigned. -/
theorem test_illFormed_gteUnknown :
    (Instr.gteUnknown 0x01).wellFormed = false ∧ (Instr.gteUnknown 0x3F).wellFormed = false ∧
      (Instr.gteUnknown 0x00).wellFormed = true ∧ (Instr.gteUnknown 0x3C).wellFormed = true := by decide

/-- rs = 0, 2, 4, 6 are the COP0 moves (R182). -/
theorem test_illFormed_cop0Move :
    (Instr.cop0Unsupported 0x0000000).wellFormed = false ∧ (Instr.cop0Unsupported 0x0400000).wellFormed = false ∧
      (Instr.cop0Unsupported 0x0800000).wellFormed = false ∧ (Instr.cop0Unsupported 0x0C00000).wellFormed = false ∧
      (Instr.cop0Unsupported 0x0200000).wellFormed = true ∧ (Instr.cop0Unsupported 0x1FFFFFF).wellFormed = true := by
  decide

/-- With co = 1, funct 0x01, 0x02, 0x06, 0x08 and 0x10 are assigned (R182). -/
theorem test_illFormed_cop0Operation :
    (Instr.cop0Unsupported 0x2000001).wellFormed = false ∧ (Instr.cop0Unsupported 0x2000002).wellFormed = false ∧
      (Instr.cop0Unsupported 0x2000006).wellFormed = false ∧ (Instr.cop0Unsupported 0x2000008).wellFormed = false ∧
      (Instr.cop0Unsupported 0x2000010).wellFormed = false ∧ (Instr.cop0Unsupported 0x2000000).wellFormed = true := by
  decide

/-! ## Decoding: every constructor, by a word written out field by field (30_encoding.md R172, R179-R184;
45_gte_regs.md R441) -/

def decodesAll (l : List (Word × Instr)) : Bool := l.all fun p => decide (decodeWord p.1 = p.2)

theorem test_decode_special_1 :
    decodesAll
      [(0b000000_00000_01001_11110_10101_000000, .sll 30 9 0x15),
       (0b000000_00000_01001_11110_10101_000010, .srl 30 9 0x15),
       (0b000000_00000_01001_11110_10101_000011, .sra 30 9 0x15),
       (0b000000_10001_01001_11110_00000_000100, .sllv 30 9 17),
       (0b000000_10001_01001_11110_00000_000110, .srlv 30 9 17),
       (0b000000_10001_01001_11110_00000_000111, .srav 30 9 17),
       (0b000000_10001_00000_00000_00000_001000, .jr 17),
       (0b000000_10001_00000_11110_00000_001001, .jalr 30 17),
       (0b000000_10011010101111001101_001100, .syscall 0x9ABCD),
       (0b000000_10011010101111001101_001101, .break_ 0x9ABCD),
       (0b000000_00000_00000_11110_00000_010000, .mfhi 30),
       (0b000000_10001_00000_00000_00000_010001, .mthi 17),
       (0b000000_00000_00000_11110_00000_010010, .mflo 30),
       (0b000000_10001_00000_00000_00000_010011, .mtlo 17),
       (0b000000_10001_01001_00000_00000_011000, .mult 17 9),
       (0b000000_10001_01001_00000_00000_011001, .multu 17 9)] = true := by decide

theorem test_decode_special_2 :
    decodesAll
      [(0b000000_10001_01001_00000_00000_011010, .div 17 9),
       (0b000000_10001_01001_00000_00000_011011, .divu 17 9),
       (0b000000_10001_01001_11110_00000_100000, .add 30 17 9),
       (0b000000_10001_01001_11110_00000_100001, .addu 30 17 9),
       (0b000000_10001_01001_11110_00000_100010, .sub 30 17 9),
       (0b000000_10001_01001_11110_00000_100011, .subu 30 17 9),
       (0b000000_10001_01001_11110_00000_100100, .and 30 17 9),
       (0b000000_10001_01001_11110_00000_100101, .or 30 17 9),
       (0b000000_10001_01001_11110_00000_100110, .xor 30 17 9),
       (0b000000_10001_01001_11110_00000_100111, .nor 30 17 9),
       (0b000000_10001_01001_11110_00000_101010, .slt 30 17 9),
       (0b000000_10001_01001_11110_00000_101011, .sltu 30 17 9)] = true := by decide

theorem test_decode_jumps_and_branches :
    decodesAll
      [(0b000010_10101010111100110111100001, .j 0x2ABCDE1),
       (0b000011_10101010111100110111100001, .jal 0x2ABCDE1),
       (0b000100_10001_01001_1000110000000101, .beq 17 9 0x8C05),
       (0b000101_10001_01001_1000110000000101, .bne 17 9 0x8C05),
       (0b000110_10001_00000_1000110000000101, .blez 17 0x8C05),
       (0b000111_10001_00000_1000110000000101, .bgtz 17 0x8C05),
       (0b000001_10001_00000_1000110000000101, .bltz 17 0x8C05),
       (0b000001_10001_00001_1000110000000101, .bgez 17 0x8C05),
       (0b000001_10001_10000_1000110000000101, .bltzal 17 0x8C05),
       (0b000001_10001_10001_1000110000000101, .bgezal 17 0x8C05)] = true := by decide

theorem test_decode_immediate :
    decodesAll
      [(0b001000_10001_01001_1000110000000101, .addi 9 17 0x8C05),
       (0b001001_10001_01001_1000110000000101, .addiu 9 17 0x8C05),
       (0b001010_10001_01001_1000110000000101, .slti 9 17 0x8C05),
       (0b001011_10001_01001_1000110000000101, .sltiu 9 17 0x8C05),
       (0b001100_10001_01001_1000110000000101, .andi 9 17 0x8C05),
       (0b001101_10001_01001_1000110000000101, .ori 9 17 0x8C05),
       (0b001110_10001_01001_1000110000000101, .xori 9 17 0x8C05),
       (0b001111_00000_01001_1000110000000101, .lui 9 0x8C05)] = true := by decide

theorem test_decode_loads_and_stores_1 :
    decodesAll
      [(0b100000_10001_01001_1000110000000101, .lb 9 0x8C05 17),
       (0b100001_10001_01001_1000110000000101, .lh 9 0x8C05 17),
       (0b100010_10001_01001_1000110000000101, .lwl 9 0x8C05 17),
       (0b100011_10001_01001_1000110000000101, .lw 9 0x8C05 17),
       (0b100100_10001_01001_1000110000000101, .lbu 9 0x8C05 17),
       (0b100101_10001_01001_1000110000000101, .lhu 9 0x8C05 17),
       (0b100110_10001_01001_1000110000000101, .lwr 9 0x8C05 17),
       (0b101000_10001_01001_1000110000000101, .sb 9 0x8C05 17),
       (0b101001_10001_01001_1000110000000101, .sh 9 0x8C05 17),
       (0b101010_10001_01001_1000110000000101, .swl 9 0x8C05 17),
       (0b101011_10001_01001_1000110000000101, .sw 9 0x8C05 17),
       (0b101110_10001_01001_1000110000000101, .swr 9 0x8C05 17),
       (0b110010_10001_01001_1000110000000101, .lwc2 9 0x8C05 17),
       (0b111010_10001_01001_1000110000000101, .swc2 9 0x8C05 17),
       (0b110000_10001_01001_1000110000000101, .lwc0 9 0x8C05 17),
       (0b110001_10001_01001_1000110000000101, .lwc1 9 0x8C05 17)] = true := by decide

theorem test_decode_loads_and_stores_2 :
    decodesAll
      [(0b110011_10001_01001_1000110000000101, .lwc3 9 0x8C05 17),
       (0b111000_10001_01001_1000110000000101, .swc0 9 0x8C05 17),
       (0b111001_10001_01001_1000110000000101, .swc1 9 0x8C05 17),
       (0b111011_10001_01001_1000110000000101, .swc3 9 0x8C05 17)] = true := by decide

theorem test_decode_cop0 :
    decodesAll
      [(0b010000_00000_01001_11110_00000000000, .mfc0 9 30),
       (0b010000_00010_01001_11110_00000000000, .cfc0 9 30),
       (0b010000_00100_01001_11110_00000000000, .mtc0 9 30),
       (0b010000_00110_01001_11110_00000000000, .ctc0 9 30),
       (0b010000_1_0000000000000000000_000001, .tlbr),
       (0b010000_1_0000000000000000000_000010, .tlbwi),
       (0b010000_1_0000000000000000000_000110, .tlbwr),
       (0b010000_1_0000000000000000000_001000, .tlbp),
       (0b010000_1_0000000000000000000_010000, .rfe),
       (0b010000_01000_00000_00000_00000000001, .cop0Unsupported 0x1000001)] = true := by decide

theorem test_decode_cop1_and_cop3 :
    decodesAll
      [(0b010001_01001000110100010101100111, .cop1 0x1234567),
       (0b010011_01001000110100010101100111, .cop3 0x1234567)] = true := by decide

theorem test_decode_cop2_moves :
    decodesAll
      [(0b010010_00000_01001_11110_00000000000, .mfc2 9 30),
       (0b010010_00010_01001_11110_00000000000, .cfc2 9 30),
       (0b010010_00100_01001_11110_00000000000, .mtc2 9 30),
       (0b010010_00110_01001_11110_00000000000, .ctc2 9 30)] = true := by decide

theorem test_decode_gte_1 :
    decodesAll
      [(0b010010_1_00000_0_00_00_00_00_1_0000_000001, .gteRtps false true),
       (0b010010_1_00000_1_00_00_00_00_0_0000_000110, .gteNclip true false),
       (0b010010_1_00000_1_00_00_00_00_0_0000_001100, .gteOp true false),
       (0b010010_1_00000_1_00_00_00_00_0_0000_010000, .gteDpcs true false),
       (0b010010_1_00000_0_00_00_00_00_1_0000_010001, .gteIntpl false true),
       (0b010010_1_00000_1_10_01_11_00_0_0000_010010, .gteMvmva true .lcm .v1 .zero false),
       (0b010010_1_00000_0_00_00_00_00_1_0000_010011, .gteNcds false true),
       (0b010010_1_00000_1_00_00_00_00_0_0000_010100, .gteCdp true false),
       (0b010010_1_00000_1_00_00_00_00_0_0000_010110, .gteNcdt true false),
       (0b010010_1_00000_0_00_00_00_00_1_0000_011011, .gteNccs false true),
       (0b010010_1_00000_1_00_00_00_00_0_0000_011100, .gteCc true false),
       (0b010010_1_00000_1_00_00_00_00_0_0000_011110, .gteNcs true false),
       (0b010010_1_00000_1_00_00_00_00_0_0000_100000, .gteNct true false),
       (0b010010_1_00000_1_00_00_00_00_0_0000_101000, .gteSqr true false),
       (0b010010_1_00000_0_00_00_00_00_1_0000_101001, .gteDcpl false true),
       (0b010010_1_00000_1_00_00_00_00_0_0000_101010, .gteDpct true false)] = true := by decide

theorem test_decode_gte_2 :
    decodesAll
      [(0b010010_1_00000_0_00_00_00_00_1_0000_101101, .gteAvsz3 false true),
       (0b010010_1_00000_1_00_00_00_00_0_0000_101110, .gteAvsz4 true false),
       (0b010010_1_00000_1_00_00_00_00_0_0000_110000, .gteRtpt true false),
       (0b010010_1_00000_0_00_00_00_00_1_0000_111101, .gteGpf false true),
       (0b010010_1_00000_1_00_00_00_00_0_0000_111110, .gteGpl true false),
       (0b010010_1_00000_0_00_00_00_00_1_0000_111111, .gteNcct false true),
       (0b010010_1_00000_0_00_00_00_00_0_0000_111010, .gteUnknown 0x3A)] = true := by decide

theorem test_decode_undefined_op_1 :
    decodesAll
      [(0b010100_00000_00000_0000000000000000, .unimplOp14),
       (0b010101_00000_00000_0000000000000000, .unimplOp15),
       (0b010110_00000_00000_0000000000000000, .unimplOp16),
       (0b010111_00000_00000_0000000000000000, .unimplOp17),
       (0b011000_00000_00000_0000000000000000, .unimplOp18),
       (0b011001_00000_00000_0000000000000000, .unimplOp19),
       (0b011010_00000_00000_0000000000000000, .unimplOp1A),
       (0b011011_00000_00000_0000000000000000, .unimplOp1B),
       (0b011100_00000_00000_0000000000000000, .unimplOp1C),
       (0b011101_00000_00000_0000000000000000, .unimplOp1D),
       (0b011110_00000_00000_0000000000000000, .unimplOp1E),
       (0b011111_00000_00000_0000000000000000, .unimplOp1F),
       (0b100111_00000_00000_0000000000000000, .unimplOp27),
       (0b101100_00000_00000_0000000000000000, .unimplOp2C),
       (0b101101_00000_00000_0000000000000000, .unimplOp2D),
       (0b101111_00000_00000_0000000000000000, .unimplOp2F)] = true := by decide

theorem test_decode_undefined_op_2 :
    decodesAll
      [(0b110100_00000_00000_0000000000000000, .unimplOp34),
       (0b110101_00000_00000_0000000000000000, .unimplOp35),
       (0b110110_00000_00000_0000000000000000, .unimplOp36),
       (0b110111_00000_00000_0000000000000000, .unimplOp37),
       (0b111100_00000_00000_0000000000000000, .unimplOp3C),
       (0b111101_00000_00000_0000000000000000, .unimplOp3D),
       (0b111110_00000_00000_0000000000000000, .unimplOp3E),
       (0b111111_00000_00000_0000000000000000, .unimplOp3F)] = true := by decide

theorem test_decode_undefined_special_1 :
    decodesAll
      [(0b000000_00000_00000_00000_00000_000001, .unimplSpecial01),
       (0b000000_00000_00000_00000_00000_000101, .unimplSpecial05),
       (0b000000_00000_00000_00000_00000_001010, .unimplSpecial0A),
       (0b000000_00000_00000_00000_00000_001011, .unimplSpecial0B),
       (0b000000_00000_00000_00000_00000_001110, .unimplSpecial0E),
       (0b000000_00000_00000_00000_00000_001111, .unimplSpecial0F),
       (0b000000_00000_00000_00000_00000_010100, .unimplSpecial14),
       (0b000000_00000_00000_00000_00000_010101, .unimplSpecial15),
       (0b000000_00000_00000_00000_00000_010110, .unimplSpecial16),
       (0b000000_00000_00000_00000_00000_010111, .unimplSpecial17),
       (0b000000_00000_00000_00000_00000_011100, .unimplSpecial1C),
       (0b000000_00000_00000_00000_00000_011101, .unimplSpecial1D),
       (0b000000_00000_00000_00000_00000_011110, .unimplSpecial1E),
       (0b000000_00000_00000_00000_00000_011111, .unimplSpecial1F),
       (0b000000_00000_00000_00000_00000_101000, .unimplSpecial28),
       (0b000000_00000_00000_00000_00000_101001, .unimplSpecial29)] = true := by decide

theorem test_decode_undefined_special_2 :
    decodesAll
      [(0b000000_00000_00000_00000_00000_101100, .unimplSpecial2C),
       (0b000000_00000_00000_00000_00000_101101, .unimplSpecial2D),
       (0b000000_00000_00000_00000_00000_101110, .unimplSpecial2E),
       (0b000000_00000_00000_00000_00000_101111, .unimplSpecial2F),
       (0b000000_00000_00000_00000_00000_110000, .unimplSpecial30),
       (0b000000_00000_00000_00000_00000_110001, .unimplSpecial31),
       (0b000000_00000_00000_00000_00000_110010, .unimplSpecial32),
       (0b000000_00000_00000_00000_00000_110011, .unimplSpecial33),
       (0b000000_00000_00000_00000_00000_110100, .unimplSpecial34),
       (0b000000_00000_00000_00000_00000_110101, .unimplSpecial35),
       (0b000000_00000_00000_00000_00000_110110, .unimplSpecial36),
       (0b000000_00000_00000_00000_00000_110111, .unimplSpecial37),
       (0b000000_00000_00000_00000_00000_111000, .unimplSpecial38),
       (0b000000_00000_00000_00000_00000_111001, .unimplSpecial39),
       (0b000000_00000_00000_00000_00000_111010, .unimplSpecial3A),
       (0b000000_00000_00000_00000_00000_111011, .unimplSpecial3B)] = true := by decide

theorem test_decode_undefined_special_3 :
    decodesAll
      [(0b000000_00000_00000_00000_00000_111100, .unimplSpecial3C),
       (0b000000_00000_00000_00000_00000_111101, .unimplSpecial3D),
       (0b000000_00000_00000_00000_00000_111110, .unimplSpecial3E),
       (0b000000_00000_00000_00000_00000_111111, .unimplSpecial3F)] = true := by decide

theorem test_decode_undefined_regimm_1 :
    decodesAll
      [(0b000001_00000_00010_0000000000000000, .unimplRegimm02),
       (0b000001_00000_00011_0000000000000000, .unimplRegimm03),
       (0b000001_00000_00100_0000000000000000, .unimplRegimm04),
       (0b000001_00000_00101_0000000000000000, .unimplRegimm05),
       (0b000001_00000_00110_0000000000000000, .unimplRegimm06),
       (0b000001_00000_00111_0000000000000000, .unimplRegimm07),
       (0b000001_00000_01000_0000000000000000, .unimplRegimm08),
       (0b000001_00000_01001_0000000000000000, .unimplRegimm09),
       (0b000001_00000_01010_0000000000000000, .unimplRegimm0A),
       (0b000001_00000_01011_0000000000000000, .unimplRegimm0B),
       (0b000001_00000_01100_0000000000000000, .unimplRegimm0C),
       (0b000001_00000_01101_0000000000000000, .unimplRegimm0D),
       (0b000001_00000_01110_0000000000000000, .unimplRegimm0E),
       (0b000001_00000_01111_0000000000000000, .unimplRegimm0F),
       (0b000001_00000_10010_0000000000000000, .unimplRegimm12),
       (0b000001_00000_10011_0000000000000000, .unimplRegimm13)] = true := by decide

theorem test_decode_undefined_regimm_2 :
    decodesAll
      [(0b000001_00000_10100_0000000000000000, .unimplRegimm14),
       (0b000001_00000_10101_0000000000000000, .unimplRegimm15),
       (0b000001_00000_10110_0000000000000000, .unimplRegimm16),
       (0b000001_00000_10111_0000000000000000, .unimplRegimm17),
       (0b000001_00000_11000_0000000000000000, .unimplRegimm18),
       (0b000001_00000_11001_0000000000000000, .unimplRegimm19),
       (0b000001_00000_11010_0000000000000000, .unimplRegimm1A),
       (0b000001_00000_11011_0000000000000000, .unimplRegimm1B),
       (0b000001_00000_11100_0000000000000000, .unimplRegimm1C),
       (0b000001_00000_11101_0000000000000000, .unimplRegimm1D),
       (0b000001_00000_11110_0000000000000000, .unimplRegimm1E),
       (0b000001_00000_11111_0000000000000000, .unimplRegimm1F)] = true := by decide

/-- 95_test_vectors.md section 12: should-be-zero fields, priorities, the catch-all rows. -/
theorem test_decode_priorities :
    decodesAll
      [(0x00A0F808, .jr 5), (0x43FFFFD0, .rfe), (0x4B400006, .gteNclip false false), (0x48200001, .gteRtps false false),
       (0x48000001, .mfc2 0 0), (0x4A000000, .gteUnknown 0), (0x41000001, .cop0Unsupported 0x1000001),
       (0x04020000, .unimplRegimm02), (0x40010010, .mfc0 1 0), (0x46000010, .cop1 0x2000010)] = true := by decide

/-- A word is four bytes, the first the least significant (30_encoding.md R170); fewer are no word. -/
theorem test_decode_bytes :
    decode [0x20, 0x50, 0x09, 0x01, 0xFF] = .ok (.add 10 8 9, [0xFF]) ∧
      (match decode [0x20, 0x50, 0x09] with | .ok _ => false | .error _ => true) = true := by decide

end Sys2Proof

namespace Sys2Proof.Machine

/-! ## One step of each instruction: the vectors of 95_test_vectors.md and the examples of the rules -/

/-- The start state of 95_test_vectors.md section 0, with `word` at pc, some registers, and the words 0x8899AABB
and 0xCCDDEEFF at physical 0x100. -/
def start (word : Nat) (regs : List (Reg × Word)) : State :=
  let s := ({ State.reset with pc := 0x80010000 }).withFetchWord 32 word
  regs.foldl (fun t p => t.setReg p.1 p.2) (s.loadRam 0x100 [0xBB, 0xAA, 0x99, 0x88, 0xFF, 0xEE, 0xDD, 0xCC])

/-- The step answers a next state in which `p` holds. -/
def after (s : State) (p : State → Bool) : Bool :=
  match step s with
  | .next t => p t
  | .fault _ => false
  | .refused _ => false

def refusedWith (r : Refusal) (s : State) : Bool :=
  match step s with
  | .refused q => decide (q = r)
  | .next _ => false
  | .fault _ => false

/-- Register `r` holds `v`, pc moved to the next word, and no exception was taken. -/
def gives (r : Reg) (v : Word) (t : State) : Bool := t.getReg r == v && t.pc == 0x80010004 && t.status == 0x00600000

/-- The exception with this Cause and BadVAddr was taken at 0x80010000, from the Status of reset. -/
def took (cause badVAddr : Word) (t : State) : Bool :=
  t.cause == cause && t.epc == 0x80010000 && t.badVAddr == badVAddr && t.pc == 0xBFC00180 && t.status == 0x00600000

def withStatus (v : Word) (s : State) : State := s.setCop0 12 v

def ramWord (s : State) (a : Nat) : Word := Memory.readLE s.ram a 4

def hiLo (hi lo : Word) (t : State) : Bool := t.hi == hi && t.lo == lo

/-- The branch state after a branch, and x31. -/
def branched (pending : Bool) (target x31 : Word) (t : State) : Bool :=
  t.branchPending == pending && t.branchTarget == target && t.getReg 31 == x31 && t.pc == 0x80010004

/-! ### ALU (section 2) -/

theorem test_add_overflow :
    after (start 0x01095020 [(8, 0x7FFFFFFF), (9, 1), (10, 0x55)])
      (fun t => took 0x30 0 t && t.getReg 10 == 0x55) = true := by decide
theorem test_add_opposite_signs :
    after (start 0x01095020 [(8, 0x7FFFFFFF), (9, 0x80000000)]) (gives 10 0xFFFFFFFF) = true := by decide
theorem test_addu_wraps : after (start 0x01095021 [(8, 0x7FFFFFFF), (9, 1)]) (gives 10 0x80000000) = true := by decide
theorem test_sub_overflow :
    after (start 0x01095022 [(8, 0), (9, 0x80000000), (10, 0x55)])
      (fun t => took 0x30 0 t && t.getReg 10 == 0x55) = true := by decide
theorem test_sub_order :
    after (start 0x01095022 [(8, 0xFFFFFFFF), (9, 0x80000000)]) (gives 10 0x7FFFFFFF) = true := by decide
theorem test_subu_wraps : after (start 0x01095023 [(8, 0x80000000), (9, 1)]) (gives 10 0x7FFFFFFF) = true := by decide
theorem test_addi_overflow :
    after (start 0x2109FFFF [(8, 0x80000000), (9, 0x55)])
      (fun t => took 0x30 0 t && t.getReg 9 == 0x55) = true := by decide
theorem test_addiu_wraps : after (start 0x25090001 [(8, 0x7FFFFFFF)]) (gives 9 0x80000000) = true := by decide
theorem test_slt_signed : after (start 0x0109502A [(8, 0x80000000), (9, 0x7FFFFFFF)]) (gives 10 1) = true := by decide
theorem test_sltu_unsigned :
    after (start 0x0109502B [(8, 0x80000000), (9, 0x7FFFFFFF), (10, 7)]) (gives 10 0) = true := by decide
theorem test_slti_signed : after (start 0x29090000 [(8, 0x80000000)]) (gives 9 1) = true := by decide
theorem test_sltiu_extends_then_unsigned :
    after (start 0x2D09FFFF [(8, 0xFFFFFFFE)]) (gives 9 1) = true := by decide
theorem test_sll_31 : after (start 0x000957C0 [(9, 3)]) (gives 10 0x80000000) = true := by decide
theorem test_sra_31 : after (start 0x000957C3 [(9, 0x80000000)]) (gives 10 0xFFFFFFFF) = true := by decide
theorem test_srl_31 : after (start 0x000957C2 [(9, 0x80000000)]) (gives 10 1) = true := by decide
theorem test_sllv_32 : after (start 0x01095004 [(9, 1), (8, 32)]) (gives 10 1) = true := by decide
theorem test_srav_31 : after (start 0x01095007 [(9, 0x80000000), (8, 0xFFFFFFFF)]) (gives 10 0xFFFFFFFF) = true := by decide
theorem test_srlv_63 : after (start 0x01095006 [(9, 0x80000000), (8, 0x3F)]) (gives 10 1) = true := by decide
theorem test_lui : after (start 0x3C08FFFF []) (gives 8 0xFFFF0000) = true := by decide
theorem test_andi_zero_extends : after (start 0x3109FFFF [(8, 0xFFFFFFFF)]) (gives 9 0x0000FFFF) = true := by decide
theorem test_ori_zero_extends : after (start 0x3509FFFF []) (gives 9 0x0000FFFF) = true := by decide
theorem test_xori_zero_extends : after (start 0x39098000 []) (gives 9 0x00008000) = true := by decide
theorem test_nor : after (start 0x00005027 []) (gives 10 0xFFFFFFFF) = true := by decide
theorem test_and : after (start 0x01095024 [(8, 0xF0F0F0F0), (9, 0xFF00FF00)]) (gives 10 0xF000F000) = true := by decide
theorem test_or : after (start 0x01095025 [(8, 0xF0F0F0F0), (9, 0xFF00FF00)]) (gives 10 0xFFF0FFF0) = true := by decide
theorem test_xor : after (start 0x01095026 [(8, 0xF0F0F0F0), (9, 0xFF00FF00)]) (gives 10 0x0FF00FF0) = true := by decide
/-- The S2 shape of section 1: register 0 as destination stays 0. -/
theorem test_register_zero : after (start 0x01090021 [(8, 1), (9, 2)]) (gives 0 0) = true := by decide

/-! ### Multiply and divide (section 3) -/

theorem test_mult_signed : after (start 0x01090018 [(8, 0x80000000), (9, 0xFFFFFFFF)]) (hiLo 0 0x80000000) = true := by decide
theorem test_mult_high : after (start 0x01090018 [(8, 0x80000000), (9, 0x80000000)]) (hiLo 0x40000000 0) = true := by decide
theorem test_multu : after (start 0x01090019 [(8, 0xFFFFFFFF), (9, 0xFFFFFFFF)]) (hiLo 0xFFFFFFFE 1) = true := by decide
theorem test_div_truncates : after (start 0x0109001A [(8, 7), (9, 0xFFFFFFFE)]) (hiLo 1 0xFFFFFFFD) = true := by decide
theorem test_div_by_zero : after (start 0x0109001A [(8, 0xFFFFFFF9)]) (hiLo 0xFFFFFFF9 1) = true := by decide
theorem test_divu : after (start 0x0109001B [(8, 0x80000000), (9, 0xFFFFFFFF)]) (hiLo 0x80000000 0) = true := by decide
theorem test_divu_by_zero : after (start 0x0109001B [(8, 0xFFFFFFF9)]) (hiLo 0xFFFFFFF9 0xFFFFFFFF) = true := by decide
theorem test_mthi : after (start 0x01000011 [(8, 0xDEADBEEF)]) (hiLo 0xDEADBEEF 0) = true := by decide
theorem test_mtlo : after (start 0x01000013 [(8, 0x12345678)]) (hiLo 0 0x12345678) = true := by decide
theorem test_mfhi : after ((start 0x00005010 []).setHiLo 0xDEADBEEF 1) (gives 10 0xDEADBEEF) = true := by decide
theorem test_mflo : after ((start 0x00005012 []).setHiLo 1 0x12345678) (gives 10 0x12345678) = true := by decide

/-! ### Control transfer (section 4) -/

theorem test_beq_not_taken : after (start 0x11090003 [(8, 1), (9, 2)]) (branched false 0 0) = true := by decide
theorem test_beq_backward : after (start 0x1000FFFF []) (branched true 0x80010000 0) = true := by decide
theorem test_bne_taken : after (start 0x15090003 [(8, 1), (9, 2)]) (branched true 0x80010010 0) = true := by decide
theorem test_bne_backward : after (start 0x1509FFFE [(8, 1)]) (branched true 0x8000FFFC 0) = true := by decide
theorem test_blez_negative : after (start 0x19000003 [(8, 0x80000000)]) (branched true 0x80010010 0) = true := by decide
theorem test_blez_zero : after (start 0x19000003 []) (branched true 0x80010010 0) = true := by decide
theorem test_bgtz_zero : after (start 0x1D000003 []) (branched false 0 0) = true := by decide
theorem test_bgtz_one : after (start 0x1D000003 [(8, 1)]) (branched true 0x80010010 0) = true := by decide
theorem test_bltz_zero : after (start 0x05000003 []) (branched false 0 0) = true := by decide
theorem test_bgez_negative : after (start 0x05010003 [(8, 0x80000000)]) (branched false 0 0) = true := by decide
theorem test_bgez_zero : after (start 0x05010003 []) (branched true 0x80010010 0) = true := by decide
theorem test_bltzal : after (start 0x05100003 [(8, 0x80000000)]) (branched true 0x80010010 0x80010008) = true := by decide
/-- The condition is on the old x31 (`42_control.md` R325): bltzal $31 with x31 negative. -/
theorem test_bltzal_old_x31 : after (start 0x07F00003 [(31, 1)]) (branched false 0 0x80010008) = true := by decide
theorem test_bgezal_links_not_taken :
    after (start 0x05110003 [(8, 0x80000000)]) (branched false 0 0x80010008) = true := by decide
theorem test_j_region : after (start 0x0BFFFFFF []) (branched true 0x8FFFFFFC 0) = true := by decide
theorem test_jal : after (start 0x0C004010 []) (branched true 0x80010040 0x80010008) = true := by decide
theorem test_jalr_same_register :
    after (start 0x01004009 [(8, 0x80020000)])
      (fun t => branched true 0x80020000 0 t && t.getReg 8 == 0x80010008) = true := by decide
theorem test_jr_any_target : after (start 0x01000008 [(8, 0x80020002)]) (branched true 0x80020002 0) = true := by decide
/-- B17: a branch in a delay slot. -/
theorem test_branch_in_delay_slot :
    refusedWith .branchInDelaySlot ((start 0x10000001 []).takeBranch 0x80020000) = true := by decide
/-- Y20: an undefined word in a delay slot; the branch lands. -/
theorem test_delay_slot_lands :
    after ((start 0xFC000000 []).takeBranch 0x80020000)
      (fun t => t.pc == 0x80020000 && !t.branchPending && t.diag == [.unimplemented 0xFC000000 0x80010000]) = true := by
  decide

/-! ### Loads and stores (section 5, and the examples of `43_loadstore.md` R351 and R352) -/

theorem test_lb : after (start 0x81090003 [(8, 0x80000100)]) (gives 9 0xFFFFFF88) = true := by decide
theorem test_lbu : after (start 0x91090003 [(8, 0x80000100)]) (gives 9 0x00000088) = true := by decide
theorem test_lh : after (start 0x85090002 [(8, 0x80000100)]) (gives 9 0xFFFF8899) = true := by decide
theorem test_lh_misaligned :
    after (start 0x85090001 [(8, 0x80000100), (9, 0x55)])
      (fun t => took 0x10 0x80000101 t && t.getReg 9 == 0x55) = true := by decide
theorem test_lhu : after (start 0x95090002 [(8, 0x80000100)]) (gives 9 0x00008899) = true := by decide
theorem test_lw_negative_offset : after (start 0x8D09FFFC [(8, 0x80000104)]) (gives 9 0x8899AABB) = true := by decide
theorem test_lw_unmapped :
    after (start 0x8D090000 [(8, 0x80200000), (9, 7)])
      (fun t => gives 9 0 t && t.diag == [.unhandledRead 0x00200000 .word]) = true := by decide
theorem test_sb :
    after (start 0xA1090003 [(8, 0x80000100), (9, 0x1234)]) (fun t => ramWord t 0x100 == 0x3499AABB) = true := by decide
theorem test_sh :
    after (start 0xA5090002 [(8, 0x80000100), (9, 0x1234)]) (fun t => ramWord t 0x100 == 0x1234AABB) = true := by decide
theorem test_sw_misaligned :
    after (start 0xAD090001 [(8, 0x80000100), (9, 0x1234)])
      (fun t => took 0x14 0x80000101 t && ramWord t 0x100 == 0x8899AABB) = true := by decide
/-- L15, L21, L22, L23: past RAM, isolated, the scratchpad (not isolated), ROM. -/
theorem test_sw_places :
    after (start 0xAD090000 [(8, 0x80200000), (9, 1)])
        (fun t => t.diag == [.unhandledWrite 0x00200000 .word 1]) = true ∧
      after (withStatus 0x00610000 (start 0xAD090000 [(8, 0x80000100), (9, 0xCAFEBABE)]))
        (fun t => ramWord t 0x100 == 0x8899AABB && t.diag == [.isolatedStore 0x80000100 .word 0xCAFEBABE]) = true ∧
      after (withStatus 0x00610000 (start 0xAD090000 [(8, 0x1F800000), (9, 0xCAFEBABE)]))
        (fun t => Memory.readLE t.scratch 0 4 == 0xCAFEBABE && t.diag == []) = true ∧
      after (start 0xAD090000 [(8, 0xBFC00000), (9, 1)])
        (fun t => t.rom == [] && t.diag == [.romWrite 0x1FC00000 .word 1]) = true := by decide

def exact (s : State) : State := { s with cfg := { s.cfg with unalignedMode := .exact } }

theorem test_lwl_approx : after (start 0x89090001 [(8, 0x80000100), (9, 0x11223344)]) (gives 9 0x8899AABB) = true := by decide
theorem test_lwl_exact :
    after (exact (start 0x89090001 [(8, 0x80000100), (9, 0x11223344)])) (gives 9 0xAABB3344) = true := by decide
theorem test_lwr_approx : after (start 0x99090001 [(8, 0x80000100), (9, 0x11223344)]) (gives 9 0x8899AABB) = true := by decide
theorem test_lwr_exact :
    after (exact (start 0x99090001 [(8, 0x80000100), (9, 0x11223344)])) (gives 9 0x118899AA) = true := by decide
/-- The examples of R352 on the words 0x8899AABB and 0xCCDDEEFF: swl at 0x104 writes one byte, swr at 0x101
three. -/
theorem test_swl_exact :
    after (exact (start 0xA9090003 [(8, 0x80000101), (9, 0x44332211)])) (fun t => ramWord t 0x104 == 0xCCDDEE44) = true := by
  decide
theorem test_swl_approx :
    after (start 0xA9090003 [(8, 0x80000101), (9, 0x44332211)]) (fun t => ramWord t 0x104 == 0x44332211) = true := by decide
theorem test_swr_exact :
    after (exact (start 0xB9090000 [(8, 0x80000101), (9, 0x44332211)])) (fun t => ramWord t 0x100 == 0x332211BB) = true := by
  decide
theorem test_swr_device :
    refusedWith .partialStoreToDevice (exact (start 0xB9090000 [(8, 0x1F801001)])) = true := by decide

/-! ### System and COP0 (section 6) -/

theorem test_syscall :
    after (withStatus 0x0060003C (start 0x0000000C []))
      (fun t => t.cause == 0x20 && t.epc == 0x80010000 && t.status == 0x00600030 && t.pc == 0xBFC00180) = true := by decide
theorem test_break :
    after (withStatus 0x00000003 (start 0x0000000D []))
      (fun t => t.cause == 0x24 && t.epc == 0x80010000 && t.status == 0x0000000C && t.pc == 0x80000080) = true := by decide
theorem test_mfc0_prid : after (start 0x40087800 []) (gives 8 2) = true := by decide
theorem test_mtc0_prid : after (start 0x40887800 [(8, 0x12345678)]) (fun t => t.getCop0 15 == 0x12345678) = true := by decide
theorem test_rfe : after (withStatus 0x00000034 (start 0x42000010 [])) (fun t => t.status == 0x0000003D) = true := by decide
/-- cfc0, ctc0, tlbr, tlbwi, tlbwr, tlbp and BC0F: one diagnostic each, pc advanced, no branch (R385-R392). -/
theorem test_cop0_logged :
    ([0x40480000, 0x40C80000, 0x42000001, 0x42000002, 0x42000006, 0x42000008, 0x41000001] : List Nat).all (fun w =>
      after (start w []) fun t =>
        branched false 0 0 t && t.diag == [.cop0Unsupported (BitVec.ofNat 32 w) 0x80010000]) = true := by decide
/-- COP1, COP3, lwc0, lwc1, lwc3, swc0, swc1, swc3: one diagnostic each (R393, R394). -/
theorem test_absent_coprocessors :
    ([0x44000000, 0x4C000000, 0xC0000000, 0xC4000000, 0xCC000000, 0xE0000000, 0xE4000000, 0xEC000000] :
      List Nat).all (fun w =>
      after (start w []) fun t =>
        branched false 0 0 t && t.diag == [.unimplemented (BitVec.ofNat 32 w) 0x80010000]) = true := by decide

/-- The undefined primary opcodes: one diagnostic with the word and its address (R395, R396). -/
theorem test_undefined_op :
    ([0x50000000, 0x54000000, 0x58000000, 0x5C000000, 0x60000000, 0x64000000, 0x68000000, 0x6C000000, 0x70000000] ++
      [0x74000000, 0x78000000, 0x7C000000, 0x9C000000, 0xB0000000, 0xB4000000, 0xBC000000, 0xD0000000, 0xD4000000] ++
      [0xD8000000, 0xDC000000, 0xF0000000, 0xF4000000, 0xF8000000, 0xFC000000] : List Nat).all (fun w =>
      after (start w []) fun t =>
        branched false 0 0 t && t.diag == [.unimplemented (BitVec.ofNat 32 w) 0x80010000]) = true := by decide

/-- The undefined SPECIAL functions: one diagnostic with the word and its address (R395, R396). -/
theorem test_undefined_special :
    ([0x00000001, 0x00000005, 0x0000000A, 0x0000000B, 0x0000000E, 0x0000000F, 0x00000014, 0x00000015, 0x00000016] ++
      [0x00000017, 0x0000001C, 0x0000001D, 0x0000001E, 0x0000001F, 0x00000028, 0x00000029, 0x0000002C, 0x0000002D] ++
      [0x0000002E, 0x0000002F, 0x00000030, 0x00000031, 0x00000032, 0x00000033, 0x00000034, 0x00000035, 0x00000036] ++
      [0x00000037, 0x00000038, 0x00000039, 0x0000003A, 0x0000003B, 0x0000003C, 0x0000003D, 0x0000003E, 0x0000003F] :
      List Nat).all (fun w =>
      after (start w []) fun t =>
        branched false 0 0 t && t.diag == [.unimplemented (BitVec.ofNat 32 w) 0x80010000]) = true := by decide

/-- The undefined REGIMM rt values: one diagnostic with the word and its address (R395, R396). -/
theorem test_undefined_regimm :
    ([0x04020000, 0x04030000, 0x04040000, 0x04050000, 0x04060000, 0x04070000, 0x04080000, 0x04090000, 0x040A0000] ++
      [0x040B0000, 0x040C0000, 0x040D0000, 0x040E0000, 0x040F0000, 0x04120000, 0x04130000, 0x04140000, 0x04150000] ++
      [0x04160000, 0x04170000, 0x04180000, 0x04190000, 0x041A0000, 0x041B0000, 0x041C0000, 0x041D0000, 0x041E0000] ++
      [0x041F0000] : List Nat).all (fun w =>
      after (start w []) fun t =>
        branched false 0 0 t && t.diag == [.unimplemented (BitVec.ofNat 32 w) 0x80010000]) = true := by decide

/-! ### GTE register moves (section 7) -/

def field (s : State) : State := { s with cfg := { s.cfg with gteMoveMode := .field } }

def withD (l : List (Reg × Word)) (s : State) : State := l.foldl (fun t p => { t with gte := t.gte.setD p.1 p.2 }) s
def withC (l : List (Reg × Word)) (s : State) : State := l.foldl (fun t p => { t with gte := t.gte.setC p.1 p.2 }) s

/-- The data registers hold these values. -/
def holdsD (l : List (Reg × Word)) (t : State) : Bool := l.all fun p => t.gte.getD p.1 == p.2

theorem test_mtc2_signed : after (field (start 0x48890800 [(9, 0x0001FFFF)])) (holdsD [(1, 0xFFFFFFFF)]) = true := by decide
theorem test_mtc2_sxyp :
    after (field (withD [(12, 1), (13, 2), (14, 3)] (start 0x48897800 [(9, 4)])))
      (holdsD [(12, 2), (13, 3), (14, 4), (15, 0)]) = true := by decide
theorem test_mfc2_raw : after (withD [(24, 0xFFFE0001)] (start 0x4808C000 [])) (gives 8 0xFFFE0001) = true := by decide
theorem test_mfc2_orgb :
    after (field (withD [(9, 0xF80), (11, 0x1000)] (start 0x4808E800 []))) (gives 8 0x00007C1F) = true := by decide
theorem test_mfc2_lzcr : after (field (withD [(30, 0xFFFFF000)] (start 0x4808F800 []))) (gives 8 20) = true := by decide
theorem test_ctc2_flag :
    after (field (start 0x48C9F800 [(9, 0xFFFFFFFF)])) (fun t => t.gte.getC 31 == 0xFFFFF000) = true := by decide
theorem test_ctc2_h : after (field (start 0x48C9D000 [(9, 0x8000)])) (fun t => t.gte.getC 26 == 0x8000) = true := by decide
theorem test_cfc2_h : after (field (withC [(26, 0x8000)] (start 0x4848D000 []))) (gives 8 0xFFFF8000) = true := by decide
theorem test_lwc2 : after (field (start 0xC9090000 [(8, 0x80000100)])) (holdsD [(9, 0xFFFFAABB)]) = true := by decide
theorem test_lwc2_misaligned : after (start 0xC9000002 [(8, 0x80001000)]) (took 0x10 0x80001002) = true := by decide
theorem test_swc2 :
    after (withD [(14, 0x00140028)] (start 0xE90E0004 [(8, 0x80001000)]))
      (fun t => ramWord t 0x1004 == 0x00140028) = true := by decide
theorem test_swc2_misaligned : after (start 0xE90E0001 [(8, 0x80001000)]) (took 0x14 0x80001001) = true := by decide

/-! ### Exceptions and interrupts (section 8) -/

/-- X4: lw in a delay slot, misaligned: EPC is the branch, BD is set. -/
theorem test_exception_in_delay_slot :
    after ((start 0x8D090001 [(8, 0x80000100)]).takeBranch 0x80020000)
      (fun t => t.cause == 0x80000010 && t.epc == 0x8000FFFC && t.badVAddr == 0x80000101 && !t.branchPending) = true := by
  decide
/-- The third step of X3: a misaligned pc. -/
theorem test_misaligned_fetch :
    after (withStatus 0 { State.reset with pc := 0x80020002 })
      (fun t => t.cause == 0x10 && t.epc == 0x80020002 && t.badVAddr == 0x80020002 && t.pc == 0x80000080) = true := by
  decide
/-- X7 and X8: the interrupt, without and with a pending branch. -/
theorem test_interrupt :
    after (withStatus 0x401 ((start 0x25080001 []).signalInterrupt 1))
      (fun t => t.epc == 0x80010000 && t.cause == 0x400 && t.status == 0x404 && t.pc == 0x80000080 &&
        t.getReg 8 == 0) = true := by decide
theorem test_interrupt_in_delay_slot :
    after (withStatus 0x401 ((start 0x25080001 []).signalInterrupt 1 |>.takeBranch 0x80020000))
      (fun t => t.epc == 0x8000FFFC && t.cause == 0x80000400 && !t.branchPending) = true := by decide
/-- X9 and X10: masked; the instruction runs. -/
theorem test_interrupt_masked :
    ([0x400, 0x001] : List Word).all (fun v =>
      after (withStatus v ((start 0x25080001 []).signalInterrupt 1))
        (fun t => t.cause == 0x400 && t.getReg 8 == 1 && t.pc == 0x80010004)) = true := by decide
/-- X11 and X12: a software interrupt, off and on. -/
theorem test_software_interrupt :
    ([false, true] : List Bool).all (fun b =>
      let s := (withStatus 0x101 (start 0x25080001 [])).setCop0 13 0x100
      after { s with cfg := { s.cfg with swInterrupts := b } }
        (fun t => t.getReg 8 == (if b then 0 else 1) && t.cause == 0x100)) = true := by decide
/-- X13: a held step changes nothing but the inputs it consumes. -/
theorem test_hold :
    after { start 0x25080001 [] with inputs := [⟨true, 1⟩] }
      (fun t => decide (t = (start 0x25080001 []).signalInterrupt 1)) = true := by decide

/-! ### Reset and hazards (sections 9 and 10) -/

/-- Z3: syscall from ROM, the first instruction after reset. -/
theorem test_reset_syscall :
    after (State.reset.withFetchWord 32 0x0000000C)
      (fun t => t.epc == 0xBFC00000 && t.cause == 0x20 && t.pc == 0xBFC00180) = true := by decide

def refusing (s : State) : State := { s with cfg := { s.cfg with hazardPolicy := .refuse } }

/-- H1: a load's destination read by the next instruction; H4: register 0 is exempt. -/
theorem test_load_delay :
    refusedWith .loadDelayHazard { refusing (start 0x01005021 []) with lastLoadDest := some 8 } = true ∧
      after (refusing (start 0x8D000000 [(8, 0x80000100)])) (fun t => decide (t.lastLoadDest = none)) = true ∧
      after (refusing (start 0x8D090000 [(8, 0x80000100)])) (fun t => decide (t.lastLoadDest = some 9)) = true := by
  decide
/-- H9, H10: a GTE write two and three instructions before a command. -/
theorem test_gte_write_age :
    refusedWith .gteWriteHazard { refusing (start 0x4B400006 []) with gteWriteAge := some 1 } = true ∧
      after (refusing (start 0x4B400006 [])) (fun t => t.pc == 0x80010004) = true := by decide
/-- H12, H14. -/
theorem test_hilo_age :
    refusedWith .hiLoHazard { refusing (start 0x012A0018 []) with hiloReadAge := some 0 } = true ∧
      after (refusing (start 0x012A001A [])) (fun t => t.pc == 0x80010004) = true := by decide

/-! ### GTE commands (section 11) -/

/-- The command leaves these data registers and this FLAG. -/
def leaves (l : List (Reg × Word)) (flag : Word) (t : State) : Bool := holdsD l t && t.gte.flag == flag

/-- A matrix with this diagonal from control register `n`, the form "identity" of section 11 with 0x1000. -/
def diagonal (n : Nat) (v : Word) : List (Reg × Word) :=
  [(Fin.ofNat 32 n, v), (Fin.ofNat 32 (n + 2), v), (Fin.ofNat 32 (n + 4), v)]

/-- G1. -/
theorem test_gte_rtps :
    after (withD [(0, 0xFFCE0064), (1, 0)] (withC (diagonal 0 0x1000 ++
        [(7, 2000), (26, 1000), (24, 0x00A00000), (25, 0x00780000), (27, 0xFFFFFF00), (28, 0x01000000)])
        (start 0x4A180001 [])))
      (leaves [(25, 100), (26, 0xFFFFFFCE), (27, 2000), (9, 100), (10, 0xFFFFFFCE), (11, 2000), (19, 2000),
        (14, 0x005F00D2), (24, 0x00800000), (8, 0x800)] 0) = true := by decide
/-- G1e: negative z with lm = 1. -/
theorem test_gte_rtps_negative_z :
    after (withC (diagonal 0 0x1000 ++ [(7, 0xFFFFFF9C), (26, 1000)]) (start 0x4A080401 []))
      (leaves [(27, 0xFFFFFF9C), (11, 0), (19, 0), (14, 0)] 0x80060000) = true := by decide
/-- G2. -/
theorem test_gte_rtpt :
    after (withD [(0, 0x0014000A), (2, 0x0028FFE2), (3, 1000), (4, 0xFFC40032), (5, 0xFFFFFE0C), (16, 0x11),
        (17, 0x22), (18, 0x33), (19, 0x44)]
        (withC (diagonal 0 0x1000 ++ [(7, 1000), (26, 1000), (27, 0x100)]) (start 0x4A280030 [])))
      (leaves [(12, 0x0014000A), (13, 0x0014FFF1), (14, 0xFF880063), (16, 0x44), (17, 1000), (18, 2000), (19, 500),
        (25, 50), (26, 0xFFFFFFC4), (27, 500), (24, 0x01FFFF00), (8, 0x1000)] 0x80021000) = true := by decide
/-- S9, and the extreme case of G3. -/
theorem test_gte_nclip :
    after (withD [(13, 0x0000000A), (14, 0x000A0000)] (start 0x4B400006 [])) (leaves [(24, 0x64)] 0) = true := by decide
theorem test_gte_nclip_extreme :
    after (withD [(12, 0x80008000), (13, 0x80007FFF), (14, 0x7FFF8000)] (start 0x4B400006 []))
      (leaves [(24, 0xFFFE0001)] 0x80010000) = true := by decide
/-- G4. -/
theorem test_gte_avsz3 :
    after (withD [(17, 300), (18, 300), (19, 300)] (withC [(29, 0x555)] (start 0x4B58002D [])))
      (leaves [(24, 0x0012BED4), (7, 0x12B)] 0) = true := by decide
theorem test_gte_avsz4_saturates :
    after (withD [(16, 0xFFFF), (17, 0xFFFF), (18, 0xFFFF), (19, 0xFFFF)] (withC [(30, 0x7FFF)] (start 0x4A00002E [])))
      (leaves [(24, 0xFFFA0004), (7, 0xFFFF)] 0x80050000) = true := by decide
/-- G5, and cv = 2 of G6. -/
theorem test_gte_mvmva :
    after (withD [(0, 0x7FFF7FFF), (1, 0x7FFF)] (withC [(0, 0x7FFF7FFF), (1, 0x7FFF)] (start 0x4A006012 [])))
      (leaves [(25, 0xBFFD0003), (9, 0xFFFF8000), (26, 0), (27, 0), (10, 0), (11, 0)] 0x81000000) = true := by decide
theorem test_gte_mvmva_far_colour :
    after (withD [(0, 0x0014000A), (1, 30)] (withC (diagonal 0 0x1000 ++ [(21, 0x100), (22, 0x100), (23, 0x100)])
        (start 0x4A084012 [])))
      (leaves [(25, 0), (26, 20), (27, 30), (9, 0), (10, 20), (11, 30)] 0) = true := by decide
theorem test_gte_op :
    after (withD [(9, 0x1000)] (withC (diagonal 0 0x1000) (start 0x4A08000C [])))
      (leaves [(25, 0), (26, 0x1000), (27, 0xFFFFF000), (9, 0), (10, 0x1000), (11, 0xFFFFF000)] 0) = true := by decide
theorem test_gte_dpcs :
    after (withD [(6, 0x11804020), (8, 0x800)] (withC [(21, 0xFF0), (22, 0xFF0), (23, 0xFF0)] (start 0x4A080010 [])))
      (leaves [(25, 0x8F8), (26, 0x9F8), (27, 0xBF8), (11, 0xBF8), (22, 0x11BF9F8F)] 0) = true := by decide
theorem test_gte_intpl :
    after (withD [(8, 0x400), (9, 0x800), (10, 0x800), (11, 0x800)]
        (withC [(21, 0x1000), (23, 0x800)] (start 0x4A080011 [])))
      (leaves [(25, 0xA00), (26, 0x600), (27, 0x800), (9, 0xA00), (22, 0x008060A0)] 0) = true := by decide

/-- The lighting setup of the NCDS row: LLM the identity, LCM half of it, V0 on the x axis. -/
def lit (word : Nat) (d : List (Reg × Word)) (c : List (Reg × Word)) : State :=
  withD ([(6, 0x30808080), (0, 0x1000)] ++ d) (withC (diagonal 8 0x1000 ++ diagonal 16 0x800 ++ c) (start word []))

set_option maxRecDepth 4000 in
theorem test_gte_ncds :
    after (lit 0x4A080413 [(8, 0x800)] [(21, 0x1000), (22, 0x1000), (23, 0x1000)])
      (leaves [(25, 0xA00), (26, 0x800), (27, 0x800), (9, 0xA00), (22, 0x308080A0)] 0) = true := by decide
theorem test_gte_nccs :
    after (lit 0x4A08041B [(8, 0x800)] [(21, 0x1000), (22, 0x1000), (23, 0x1000)])
      (leaves [(25, 0x400), (26, 0), (27, 0), (9, 0x400), (22, 0x30000040)] 0) = true := by decide
theorem test_gte_ncs :
    after (lit 0x4A08041E [(8, 0x800)] [(21, 0x1000), (22, 0x1000), (23, 0x1000)])
      (leaves [(25, 0x800), (26, 0), (27, 0), (9, 0x800), (22, 0x30000080)] 0) = true := by decide

/-- V1 and V2 of the NCDT row. -/
def threeVertices : List (Reg × Word) := [(2, 0x10000000), (5, 0xFFFFF000)]

set_option maxRecDepth 4000 in
theorem test_gte_ncdt :
    after (lit 0x4A080416 threeVertices [])
      (leaves [(20, 0x30000040), (21, 0x30004000), (22, 0x30000000)] 0x00400000) = true := by decide
set_option maxRecDepth 4000 in
theorem test_gte_ncct :
    after (lit 0x4A08043F threeVertices [])
      (leaves [(20, 0x30000040), (21, 0x30004000), (22, 0x30000000)] 0x00400000) = true := by decide
theorem test_gte_nct :
    after (lit 0x4A080420 threeVertices [])
      (leaves [(20, 0x30000080), (21, 0x30008000), (22, 0x30000000)] 0x00400000) = true := by decide
theorem test_gte_cdp :
    after (lit 0x4A080414 [(9, 0x1000), (10, 0x800)] [(13, 0x100)])
      (leaves [(25, 0x480), (26, 0x200), (27, 0), (9, 0x480), (22, 0x30002048)] 0) = true := by decide
theorem test_gte_cc :
    after (lit 0x4A08041C [(9, 0x1000), (10, 0x800)] [(13, 0x100)])
      (leaves [(25, 0x480), (26, 0x200), (27, 0), (9, 0x480), (22, 0x30002048)] 0) = true := by decide
theorem test_gte_sqr :
    after (withD [(9, 0x1000), (10, 0xFFFFE000), (11, 3)] (start 0x4A000028 []))
      (leaves [(25, 0x01000000), (26, 0x04000000), (27, 9), (9, 0x7FFF), (10, 0x7FFF), (11, 9)] 0x81800000) = true := by
  decide
theorem test_gte_dcpl :
    after (withD [(6, 0x00FF8040), (9, 0x1000), (10, 0x800), (11, 0x400)] (start 0x4A080029 []))
      (leaves [(25, 0x400), (26, 0x400), (27, 0x3FC), (9, 0x400), (22, 0x003F4040)] 0) = true := by decide
theorem test_gte_dpct :
    after (withD [(20, 0x10), (21, 0x2000), (22, 0x300000), (6, 0x77000000)] (start 0x4A08002A []))
      (leaves [(20, 0x77000010), (21, 0x77002000), (22, 0x77300000), (27, 0x300), (11, 0x300)] 0) = true := by decide
theorem test_gte_gpf :
    after (withD [(8, 0x800), (9, 0x1000), (10, 0x800), (6, 0x55000000)] (start 0x4A08003D []))
      (leaves [(25, 0x800), (26, 0x400), (27, 0), (9, 0x800), (22, 0x55004080)] 0) = true := by decide
theorem test_gte_gpl :
    after (withD [(25, 0x100), (26, 0x100), (27, 0xFFFFFF00), (8, 0x800), (9, 0x1000), (10, 0x800)] (start 0x4A08003E []))
      (leaves [(25, 0x900), (26, 0x500), (27, 0xFFFFFF00), (11, 0xFFFFFF00), (22, 0x00005090)] 0x00080000) = true := by
  decide
/-- G7: an unassigned command, and a command that is not implemented; FLAG is not cleared. -/
theorem test_gte_unknown :
    after (withC [(31, 0x1000)] (start 0x4A000002 []))
      (fun t => leaves [] 0x1000 t && t.diag == [.gteUnknown 0x4A000002 0x80010000]) = true := by decide
theorem test_gte_not_implemented :
    after (let s := start 0x4A180001 []
           { s with cfg := { s.cfg with gteImplemented := [.nclip] } })
      (fun t => leaves [(14, 0)] 0 t && t.diag == [.gteUnknown 0x4A180001 0x80010000]) = true := by decide

/-! ### The reciprocal table: the 257 values R485 lists -/

theorem test_unr_1 :
    (List.range' 0 64).map unr =
      [0xFF, 0xFD, 0xFB, 0xF9, 0xF7, 0xF5, 0xF3, 0xF1, 0xEF, 0xEE, 0xEC, 0xEA, 0xE8, 0xE6, 0xE4, 0xE3] ++
      [0xE1, 0xDF, 0xDD, 0xDC, 0xDA, 0xD8, 0xD6, 0xD5, 0xD3, 0xD1, 0xD0, 0xCE, 0xCD, 0xCB, 0xC9, 0xC8] ++
      [0xC6, 0xC5, 0xC3, 0xC1, 0xC0, 0xBE, 0xBD, 0xBB, 0xBA, 0xB8, 0xB7, 0xB5, 0xB4, 0xB2, 0xB1, 0xB0] ++
      [0xAE, 0xAD, 0xAB, 0xAA, 0xA9, 0xA7, 0xA6, 0xA4, 0xA3, 0xA2, 0xA0, 0x9F, 0x9E, 0x9C, 0x9B, 0x9A] := by decide

theorem test_unr_2 :
    (List.range' 64 64).map unr =
      [0x99, 0x97, 0x96, 0x95, 0x94, 0x92, 0x91, 0x90, 0x8F, 0x8D, 0x8C, 0x8B, 0x8A, 0x89, 0x87, 0x86] ++
      [0x85, 0x84, 0x83, 0x82, 0x81, 0x7F, 0x7E, 0x7D, 0x7C, 0x7B, 0x7A, 0x79, 0x78, 0x77, 0x75, 0x74] ++
      [0x73, 0x72, 0x71, 0x70, 0x6F, 0x6E, 0x6D, 0x6C, 0x6B, 0x6A, 0x69, 0x68, 0x67, 0x66, 0x65, 0x64] ++
      [0x63, 0x62, 0x61, 0x60, 0x5F, 0x5E, 0x5D, 0x5D, 0x5C, 0x5B, 0x5A, 0x59, 0x58, 0x57, 0x56, 0x55] := by decide

theorem test_unr_3 :
    (List.range' 128 64).map unr =
      [0x54, 0x53, 0x53, 0x52, 0x51, 0x50, 0x4F, 0x4E, 0x4D, 0x4D, 0x4C, 0x4B, 0x4A, 0x49, 0x48, 0x48] ++
      [0x47, 0x46, 0x45, 0x44, 0x43, 0x43, 0x42, 0x41, 0x40, 0x3F, 0x3F, 0x3E, 0x3D, 0x3C, 0x3C, 0x3B] ++
      [0x3A, 0x39, 0x39, 0x38, 0x37, 0x36, 0x36, 0x35, 0x34, 0x33, 0x33, 0x32, 0x31, 0x31, 0x30, 0x2F] ++
      [0x2E, 0x2E, 0x2D, 0x2C, 0x2C, 0x2B, 0x2A, 0x2A, 0x29, 0x28, 0x28, 0x27, 0x26, 0x26, 0x25, 0x24] := by decide

theorem test_unr_4 :
    (List.range' 192 65).map unr =
      [0x24, 0x23, 0x22, 0x22, 0x21, 0x20, 0x20, 0x1F, 0x1E, 0x1E, 0x1D, 0x1D, 0x1C, 0x1B, 0x1B, 0x1A] ++
      [0x19, 0x19, 0x18, 0x18, 0x17, 0x16, 0x16, 0x15, 0x15, 0x14, 0x14, 0x13, 0x12, 0x12, 0x11, 0x11] ++
      [0x10, 0x0F, 0x0F, 0x0E, 0x0E, 0x0D, 0x0D, 0x0C, 0x0C, 0x0B, 0x0A, 0x0A, 0x09, 0x09, 0x08, 0x08] ++
      [0x07, 0x07, 0x06, 0x06, 0x05, 0x05, 0x04, 0x04, 0x03, 0x03, 0x02, 0x02, 0x01, 0x01, 0x00, 0x00] ++
      [0x00] := by decide

/-! ## Witnesses: states and operands that meet the hypotheses of each statement of
Certificates/Slice0/Obligations.lean, each clause, at the boundary of its range -/

/-- exec answers a next state in which `p` holds. -/
def execThen (i : Instr) (s : State) (p : State → Bool) : Bool :=
  match exec i s with
  | .next t => p t
  | .fault _ => false
  | .refused _ => false

/-- A state with registers 8 to 13 at the values the witnesses use. -/
def sample8 (a8 a9 : Word) : State :=
  start 0 [(8, a8), (9, a9), (10, 0x80000000), (11, 0xFFFFFFFF), (12, 0x7FFFFFFF), (13, 1)]

theorem test_witness_DecodeOfEncode :
    (Instr.lw 9 0x8000 8).wellFormed = true ∧ (Instr.gteUnknown 0x02).wellFormed = true ∧
      (Instr.cop0Unsupported 0x1000001).wellFormed = true := by decide

theorem test_witness_GteCommandWordFields :
    (∀ r ∈ ([0x01, 0x03, 0x05, 0x07, 0x08, 0x1F] : List (BitVec 5)), r ≠ 0x00 ∧ r ≠ 0x02 ∧ r ≠ 0x04 ∧ r ≠ 0x06) ∧
      (0x00#6 ∉ gteCmdNumbers ∧ 0x3C#6 ∉ gteCmdNumbers) ∧ gteCmdNumbers.length = 22 := by decide

theorem test_witness_TrappingAddAndSub :
    let s := sample8 0 0
    let v (r : Reg) : Int := (s.getReg r).toInt
    v 12 + v 0 = 2 ^ 31 - 1 ∧ v 12 + v 13 = 2 ^ 31 ∧ v 10 + v 0 = -2 ^ 31 ∧ v 10 + v 11 = -2 ^ 31 - 1 ∧
      v 12 - v 0 = 2 ^ 31 - 1 ∧ v 12 - v 11 = 2 ^ 31 ∧ v 10 - v 0 = -2 ^ 31 ∧ v 10 - v 13 = -2 ^ 31 - 1 ∧
      v 12 + (0#16).toInt = 2 ^ 31 - 1 ∧ v 12 + (1#16).toInt = 2 ^ 31 ∧ v 10 + (0xFFFF#16).toInt = -2 ^ 31 - 1 := by
  decide

theorem test_witness_DivideResults :
    let s := sample8 0 7
    let v (r : Reg) : Word := s.getReg r
    (v 8 = 0 ∧ 0 ≤ (v 8).toInt ∧ ¬0 ≤ (v 11).toInt) ∧ (v 10 = 0x80000000 ∧ v 11 = 0xFFFFFFFF) ∧
      (v 11 ≠ 0 ∧ ¬(v 9 = 0x80000000 ∧ v 11 = 0xFFFFFFFF)) ∧ (v 9 ≠ 0 ∧ ¬(v 10 = 0x80000000 ∧ v 9 = 0xFFFFFFFF)) := by
  decide

/-- The cases of the laws of division: a nonzero divisor apart from the overflow pair, and that pair. -/
theorem test_witness_MultiplyDivideLaws :
    let s := sample8 0 7
    (s.getReg 13 ≠ 0 ∧ ¬(s.getReg 11 = 0x80000000 ∧ s.getReg 13 = 0xFFFFFFFF)) ∧
      (s.getReg 10 = 0x80000000 ∧ s.getReg 11 = 0xFFFFFFFF) := by decide

/-- Each branch condition, holding and not, with equal, zero and least values. -/
theorem test_witness_BranchResults :
    let s := sample8 0 0
    (s.getReg 8 = s.getReg 9 ∧ s.getReg 8 ≠ s.getReg 13) ∧ ((s.getReg 8).toInt ≤ 0 ∧ ¬(s.getReg 13).toInt ≤ 0) ∧
      (0 < (s.getReg 13).toInt ∧ ¬0 < (s.getReg 8).toInt) ∧ ((s.getReg 10).toInt < 0 ∧ ¬(s.getReg 8).toInt < 0) ∧
      (0 ≤ (s.getReg 8).toInt ∧ ¬0 ≤ (s.getReg 11).toInt) := by decide

theorem test_witness_LinkBranchResults :
    ((sample8 0x80000000 0).getReg 8).toInt < 0 ∧ ¬0 ≤ ((sample8 0xFFFFFFFF 0).getReg 8).toInt ∧
      0 ≤ ((sample8 0 0).getReg 8).toInt := by decide

/-- Both ends of every segment (R101). -/
theorem test_witness_TranslationAndDefaultMap :
    State.reset.cfg.segMask = defaultSegMask ∧
      ([0x00000000, 0x7FFFFFFF, 0x80000000, 0x9FFFFFFF, 0xA0000000, 0xBFFFFFFF, 0xC0000000, 0xFFFFFFFF] :
        List Word).map (translate State.reset.cfg) =
        [0x00000000, 0x7FFFFFFF, 0x00000000, 0x1FFFFFFF, 0x00000000, 0x1FFFFFFF, 0xC0000000, 0xFFFFFFFF] := by decide

/-- Both ends of every range (R131) and of the two windows (R106, R108). -/
theorem test_map_ends :
    ([(0x00000000, 0x001FFFFF, .ram), (0x1FC00000, 0x1FC7FFFF, .rom), (0x1F000000, 0x1F7FFFFF, .device .expansion1),
      (0x1F801000, 0x1F801023, .device .memoryControl1), (0x1F801040, 0x1F80105F, .device .serialPorts),
      (0x1F801060, 0x1F801063, .device .memoryControl2), (0x1F801070, 0x1F801077, .device .interruptController),
      (0x1F801080, 0x1F8010FF, .device .dma), (0x1F801100, 0x1F80112F, .device .timers)] ++
      [(0x1F801800, 0x1F801803, .device .cdrom), (0x1F801810, 0x1F801817, .device .gpu),
      (0x1F801820, 0x1F801827, .device .mdec), (0x1F801C00, 0x1F801FFF, .device .spu),
      (0x1F802000, 0x1F803FFF, .device .expansion2), (0x1FA00000, 0x1FBFFFFF, .device .expansion3),
      (0x1F800000, 0x1F8003FF, .cpuLocal), (0xFFFE0130, 0xFFFE0133, .cpuLocal)] : List (Word × Word × Place)).all
        (fun r => decide (placeOf defaultConfig r.1 = r.2.2 ∧ placeOf defaultConfig r.2.1 = r.2.2)) = true ∧
      ([0x00200000, 0x1FC80000, 0x1F801024, 0x1F80103F, 0x1F800400, 0x1F9FFFFF, 0xFFFE012F, 0xFFFE0134] :
        List Word).map (placeOf defaultConfig) = List.replicate 8 .nowhere := by decide

/-- The map of reset, and addresses in each place: the scratchpad, the cache-control register, RAM, ROM, a device,
nowhere; the last aligned word of the two windows and of RAM among them. -/
theorem test_witness_places :
    let cfg := (sample8 0 0).cfg
    cfg.mapOk ∧ (sample8 0 0).memoriesWf ∧
      [0x1F800000, 0x1F8003FC, 0xFFFE0130, 0x001FFFFC, 0x1FC00000, 0x1F801070, 0x00200000].map (placeOf cfg) =
        [.cpuLocal, .cpuLocal, .cpuLocal, .ram, .rom, .device .interruptController, .nowhere] := by decide

theorem test_witness_AlignedLoads :
    let ea (k : Word) (imm : BitVec 16) : Nat := ((sample8 k 0).getReg 8 + imm.signExtend 32).toNat
    (sample8 0 0).cfg.mapOk ∧ ea 0x80000100 2 % 2 = 0 ∧ ea 0x80000100 1 % 2 ≠ 0 ∧ ea 0x80000104 0xFFFC % 4 = 0 ∧
      ea 0x80000100 2 % 4 ≠ 0 ∧ ea 0x80000100 3 % 4 ≠ 0 := by decide

theorem test_witness_AlignedStores :
    let s := sample8 0x80000100 0x1234
    s.cfg.mapOk ∧ s.memoriesWf ∧ (s.getReg 8 + (0xFFFC#16).signExtend 32).toNat % 4 = 0 ∧
      (s.getReg 8 + (2#16).signExtend 32).toNat % 2 = 0 ∧ (s.getReg 8 + (2#16).signExtend 32).toNat % 4 ≠ 0 ∧
      (s.getReg 8 + (1#16).signExtend 32).toNat % 2 ≠ 0 := by decide

theorem test_witness_GteLoadAndStore :
    let s := sample8 0x80000100 0
    s.cfg.mapOk ∧ s.memoriesWf ∧ (s.getReg 8 + (4#16).signExtend 32).toNat % 4 = 0 ∧
      (s.getReg 8 + (2#16).signExtend 32).toNat % 4 ≠ 0 := by decide

/-- Both modes, and each value of ea[1:0]. -/
theorem test_witness_UnalignedLoads :
    let s := sample8 0x80000100 0
    s.cfg.mapOk ∧ s.cfg.unalignedMode = .approx ∧ (exact s).cfg.mapOk ∧ (exact s).cfg.unalignedMode = .exact ∧
      ([0, 1, 2, 3] : List (BitVec 16)).map (fun k => (s.getReg 8 + k.signExtend 32).toNat % 4) = [0, 1, 2, 3] := by
  decide

theorem test_witness_UnalignedStores :
    let s := exact (sample8 0x80000103 0x1F801073)
    let p (r : Reg) : Word := translate s.cfg (s.getReg r &&& 0xFFFFFFFC)
    s.cfg.mapOk ∧ s.memoriesWf ∧ s.cfg.unalignedMode = .exact ∧ (placeOf s.cfg (p 8)).isStorage = true ∧
      placeOf s.cfg (p 9) = .device .interruptController ∧ (sample8 0 0).cfg.unalignedMode = .approx := by decide

theorem test_witness_UnalignedStoresNowhere :
    let s := exact (sample8 0x80200003 0)
    s.cfg.mapOk ∧ s.cfg.unalignedMode = .exact ∧
      placeOf s.cfg (translate s.cfg ((s.getReg 8 + (0#16).signExtend 32) &&& 0xFFFFFFFC)) = .nowhere := by decide

theorem test_witness_UnalignedModesAgree :
    let s := sample8 0x80000103 0x80000100
    s.cfg.mapOk ∧ (s.getReg 8 + (0#16).signExtend 32).toNat % 4 = 3 ∧
      (s.getReg 9 + (0#16).signExtend 32).toNat % 4 = 0 ∧
      (placeOf s.cfg (translate s.cfg (s.getReg 8 &&& 0xFFFFFFFC))).isStorage = true ∧
      (placeOf s.cfg (translate s.cfg (s.getReg 9 &&& 0xFFFFFFFC))).isStorage = true := by decide

/-- A RAM range of three bytes, against R131: the last halfword and the only word pass its end. -/
def shortRam (s : State) : State := { s with cfg := { s.cfg with busRanges := [⟨0, 3, .ram⟩] } }

theorem test_witness_AccessesNeverSpanRanges :
    let s := shortRam (sample8 0x80000002 0x80000000)
    dataFits s.cfg (translate s.cfg (s.getReg 8)) .half = false ∧ (s.getReg 8).toNat % 2 = 0 ∧
      dataFits s.cfg (translate s.cfg (s.getReg 9)) .word = false ∧ (s.getReg 9).toNat % 4 = 0 ∧
      s.isolated = false ∧ busFits s.cfg (translate s.cfg 0x80000000) .word = false ∧
      (s.getReg 9 &&& 0xFFFFFFFC) = s.getReg 9 ∧ s.cfg.unalignedMode = .approx ∧
      (placeOf (sample8 0 0).cfg 0x1F8003FE = .cpuLocal ∧ dataFits (sample8 0 0).cfg 0x1F8003FE .word = false) ∧
      ((sample8 0 0).cfg.mapOk ∧ (0x001FFFFC : Word).toNat % 4 = 0) := by decide

/-- The exact unaligned stores past the end of a range and of a device window, and a store past the end of a short
scratchpad under IsC. -/
theorem test_witness_AccessesNeverSpanRanges_exact :
    let s := exact (shortRam (sample8 0x80000000 0x1F801070))
    let dev : State := { s with cfg := { s.cfg with busRanges := [⟨0x1F801070, 3, .peripheral .timers⟩] } }
    let pad : State := withStatus 0x10000 { s with cfg := { s.cfg with scratchSize := 3 } }
    (s.cfg.unalignedMode = .exact ∧ dataFits s.cfg (translate s.cfg (s.getReg 8 &&& 0xFFFFFFFC)) .word = false ∧
      placeOf s.cfg (translate s.cfg (s.getReg 8 &&& 0xFFFFFFFC)) = .ram) ∧
    (dataFits dev.cfg (translate dev.cfg (dev.getReg 9 &&& 0xFFFFFFFC)) .word = false ∧
      placeOf dev.cfg (translate dev.cfg (dev.getReg 9 &&& 0xFFFFFFFC)) = .device .timers) ∧
    (pad.isolated = true ∧ placeOf pad.cfg 0x1F800000 = .cpuLocal ∧ dataFits pad.cfg 0x1F800000 .word = false ∧
      placeOf pad.cfg 0x1F800002 = .cpuLocal ∧ dataFits pad.cfg 0x1F800002 .half = false) := by decide

theorem test_witness_LoadAfterStore :
    ([0x1F800000, 0x801FFFFC] : List Word).all (fun a =>
      let s := sample8 a 0xCAFEBABE
      decide (s.cfg.mapOk ∧ s.memoriesWf ∧ (s.getReg 8 + (0#16).signExtend 32).toNat % 4 = 0 ∧ s.isolated = false) &&
        execThen (.sw 9 0 8) s (fun _ => true)) = true ∧
      [0x1F800000, 0x001FFFFC].map (placeOf (sample8 0 0).cfg) = [.cpuLocal, .ram] := by decide

theorem test_witness_UnimplementedWordsLogged :
    (Instr.cop1 0).isUnimplemented = true ∧ (Instr.swc3 1 2 3).isUnimplemented = true ∧
      Instr.unimplOp3F.isUnimplemented = true ∧ Instr.unimplSpecial01.isUnimplemented = true ∧
      Instr.unimplRegimm1F.isUnimplemented = true ∧ (Instr.lw 1 2 3).isUnimplemented = false := by decide

/-- Instructions that complete and change a register, HI or LO. -/
theorem test_witness_RegisterWriters :
    execThen (.addu 9 12 13) (sample8 0 0) (fun t => t.getReg 9 != 0) = true ∧
      execThen (.mult 10 10) (sample8 0 0) (fun t => t.hi != 0) = true ∧
      execThen (.multu 11 12) (sample8 0 0) (fun t => t.lo != 0) = true := by decide

/-- An instruction that may raise and does, one that may and does not, the two writers of COP0, and one that is
neither. -/
theorem test_witness_ExceptionSourcesAndCop0Writers :
    (Instr.add 9 12 13).mayRaise = true ∧ execThen (.add 9 12 13) (sample8 0 0) (fun t => t.pc == 0xBFC00180) = true ∧
      execThen (.add 9 8 13) (sample8 0 0) (fun t => t.pc == 0x80010000) = true ∧
      (Instr.mtc0 9 14).mayRaise = false ∧ execThen (.mtc0 12 14) (sample8 0 0) (fun t => t.epc != 0) = true ∧
      execThen .rfe (withStatus 0xC (sample8 0 0)) (fun t => t.status == 0x3) = true ∧
      (∀ rt, Instr.add 9 12 13 ≠ .mtc0 rt 12) ∧
      execThen (.add 9 12 13) (withStatus 0xC (sample8 0 0)) (fun t => t.status == 0x30) = true := by decide

theorem test_witness_BankAndMemoryWriters :
    let s := sample8 0x80000100 0x1234
    s.cfg.mapOk ∧ s.memoriesWf ∧ execThen (.mtc2 12 8) s (fun t => decide (t.gte ≠ s.gte)) = true ∧
      (Instr.addu 1 2 3).isStore = false ∧ execThen (.addu 1 2 3) s (fun _ => true) = true ∧
      ([.sb 9 0 8, .sh 9 0 8, .sw 9 0 8, .swl 9 0 8, .swr 9 0 8, .swc2 9 0 8] : List Instr).all
        (fun i => execThen i s fun _ => true) = true := by decide

theorem test_witness_NoInstructionDependsOnMode : ∀ rt, Instr.mfc0 9 13 ≠ .mfc0 rt 12 := by decide

/-- Both modes; the register classes of the reads and writes leave no register out and share none. -/
theorem test_witness_GteMoves :
    (sample8 0 0).cfg.gteMoveMode = .raw ∧ (field (sample8 0 0)).cfg.gteMoveMode = .field ∧
      (∀ n : Reg, ([[1, 3, 5, 8, 9, 10, 11], [7, 16, 17, 18, 19], [15], [28, 29], [31],
        [0, 2, 4, 6, 12, 13, 14, 20, 21, 22, 23, 24, 25, 26, 27, 30]] : List (List Reg)).countP (fun l => l.contains n) =
          1) ∧
      (∀ n : Reg, ([[1, 3, 5, 8, 9, 10, 11], [7, 16, 17, 18, 19], [15], [28], [29, 31],
        [0, 2, 4, 6, 12, 13, 14, 20, 21, 22, 23, 24, 25, 26, 27, 30]] : List (List Reg)).countP (fun l => l.contains n) =
          1) ∧
      ((26 : Reg) ∉ ([4, 12, 20, 27, 29, 30] : List Reg) ∧ (31 : Reg) ∉ ([4, 12, 20, 27, 29, 30] : List Reg)) := by
  decide

/-- The overflow branch at its boundary, and the extremes of the divisor. -/
theorem test_witness_DivisionBounds :
    (2 * 500 ≤ 1000 ∧ ¬2 * 501 ≤ 1000 ∧ 1000 < 2 ^ 16 ∧ 501 < 2 ^ 16) ∧ (0xFFFF < 2 * 0x8000 ∧ 1 < 2 * 1) ∧
      unr 0 = 0xFF ∧ unr 256 = 0 := by decide

/-- Every command is implemented at reset, and none under an empty list. -/
theorem test_witness_GteCommands :
    ([.gteRtps true false, .gteNclip true false, .gteOp true false, .gteDpcs true false, .gteIntpl true false,
      .gteMvmva true .rt .v0 .tr false, .gteNcds true true, .gteCdp true true, .gteNcdt true true, .gteNccs true true,
      .gteCc true true] ++ [.gteNcs true true, .gteNct true true, .gteSqr true false, .gteDcpl true false,
      .gteDpct true false, .gteAvsz3 true false, .gteAvsz4 true false, .gteRtpt true false, .gteGpf true false,
      .gteGpl true false, .gteNcct true false] : List Instr).filterMap Instr.gteCmd = defaultGteImplemented ∧
      (sample8 0 0).cfg.gteImplemented = defaultGteImplemented ∧
      ∀ c ∈ defaultGteImplemented, c ∉ ([] : List GteCmd) := by decide

/-- MVMVA is implemented; cv is 2 and is not. -/
theorem test_witness_MatrixVectorResults :
    GteCmd.mvmva ∈ (sample8 0 0).cfg.gteImplemented ∧ MvmTranslation.tr ≠ .fc ∧ MvmTranslation.fc = .fc := by decide

/-- The halves of the registers an element is in, RT23 and LB3 among them (R422), and the garbage matrix (R505). -/
theorem test_gte_operand_halves :
    let g := (withD [(2, 0x80007FFF), (3, 0xFFFF), (6, 0x010203FF)]
      (withC [(1, 5), (2, 0x80000007), (20, 0xFFFF8000), (15, 0x80000000)] (sample8 0 0))).gte
    (matrixAt g 0 .l2 .l3 = -0x8000 ∧ matrixAt g 0 .l2 .l2 = 7 ∧ matrixAt g 16 .l3 .l3 = -0x8000) ∧
      (vectorAt g 2 .l1 = 0x7FFF ∧ vectorAt g 2 .l2 = -0x8000 ∧ vectorAt g 2 .l3 = -1) ∧
      (wordsAt g 13 .l3 = -2 ^ 31 ∧ bytesAt (g.getD 6) .l3 = 2) ∧
      (mvmMatrixAt g .garbage .l1 .l1 = -0xFF0 ∧ mvmMatrixAt g .garbage .l1 .l2 = 0xFF0 ∧
        mvmMatrixAt g .garbage .l2 .l3 = 5 ∧ mvmMatrixAt g .garbage .l3 .l1 = 7) := by decide

theorem test_witness_FifoPushes :
    [GteCmd.dpcs, .intpl, .dcpl, .ncs, .nccs, .ncds, .cc, .cdp, .gpf, .gpl, .nct, .ncct, .ncdt, .dpct, .rtpt].all
      (fun c => (sample8 0 0).cfg.gteImplemented.contains c) = true := by decide

theorem test_witness_DepthCueWithZeroFactor :
    (((sample8 0 0).gte.getD 8).extractLsb' 0 16) = 0 ∧ ∀ c ∈ defaultGteImplemented,
      c ∈ (sample8 0 0).cfg.gteImplemented := by decide

/-- Steps that reach an instruction: from RAM, from ROM after reset, and in a delay slot. -/
theorem test_witness_Reaches :
    (∃ u, Reaches (start 0x25080001 []) 0x25080001 u ∧ refusalBefore (decodeWord 0x25080001) u = none) ∧
      (∃ u, Reaches (State.reset.withFetchWord 32 0x24080001) 0x24080001 u) ∧
      rangeAt State.reset.cfg (translate State.reset.cfg State.reset.pc) = some ⟨0x1FC00000, 0x00080000, .rom⟩ ∧
      rangeAt State.reset.cfg (translate State.reset.cfg 0x80010000) = some ⟨0, 0x00200000, .ram⟩ ∧
      (∃ u, Reaches ((start 0x10000001 []).takeBranch 0x80020000) 0x10000001 u ∧
        (decodeWord 0x10000001).isBranchOrJump = true) :=
  ⟨⟨_, ⟨by decide, by decide, by decide, by decide, _, by rfl, rfl⟩, by decide⟩,
    ⟨_, by decide, by decide, by decide, by decide, _, by rfl, rfl⟩, by decide, by decide,
    ⟨_, ⟨by decide, by decide, by decide, by decide, _, by rfl, rfl⟩, by decide⟩⟩

/-- Fetches from a scratchpad address, where nothing answers, and from a device. -/
theorem test_witness_Reaches_elsewhere :
    (∃ u, Reaches { State.reset with pc := 0x9F800000 } 0 u) ∧
      rangeAt State.reset.cfg (translate State.reset.cfg 0x9F800000) = none ∧
      (∃ w u, Reaches { State.reset with pc := 0xBF801070 } w u) ∧
      rangeAt State.reset.cfg (translate State.reset.cfg 0xBF801070) =
        some ⟨0x1F801070, 8, .peripheral .interruptController⟩ :=
  ⟨⟨_, by decide, by decide, by decide, by decide, _, by rfl, rfl⟩, by decide,
    ⟨_, _, by decide, by decide, by decide, by decide, _, by rfl, rfl⟩, by decide⟩

theorem test_witness_HoldAndEndOfRun :
    (State.reset.cfg.haltPc ≠ some State.reset.pc) ∧
      (let s := { State.reset with cfg := { State.reset.cfg with haltPc := some 0xBFC00000 } }
       s.cfg.haltPc = some s.pc) ∧ (StepInput.mk true 1).hold = true := by decide

/-- The interrupt by the line, and by software; and, masked, the step that takes none. -/
theorem test_witness_InterruptTaken :
    let s := withStatus 0x401 ((start 0x25080001 []).signalInterrupt 1)
    let soft := (withStatus 0x101 (start 0x25080001 [])).setCop0 13 0x100
    (s.cfg.haltPc ≠ some s.pc ∧ s.held = false ∧ (s.getCop0 12).getLsbD 0 = true ∧
      s.cfg.irqTable.getLsbD s.sample.lineStatus.toNat = true ∧ (s.getCop0 12).getLsbD 10 = true ∧
      s.sample.updateIp2.takesInterrupt = true ∧ s.cfg.swInterrupts = false ∧ s.cfg.irqTable = defaultIrqTable) ∧
    ((soft.getCop0 13).getLsbD 8 = true ∧ (soft.getCop0 12).getLsbD 8 = true) ∧
    (({ soft with cfg := { soft.cfg with swInterrupts := true } } : State).cfg.swInterrupts = true) := by decide

theorem test_witness_MisalignedFetch :
    ([0x80020001, 0x80020002, 0x80020003] : List Word).all (fun a =>
      let s := { State.reset with pc := a }
      decide (s.cfg.haltPc ≠ some s.pc ∧ s.held = false ∧ s.sample.updateIp2.takesInterrupt = false ∧
        s.pc.toNat % 4 ≠ 0)) = true := by decide

/-- Words of each hazard: addu $10, $8, $0 after a load of $8, lwr in the lwl/lwr pair, nclip, mthi $9; and of the
bookkeeping: lw, mtc2, mfhi. -/
theorem test_witness_HazardRefusals :
    ((refusing (sample8 0 0)).cfg.hazardPolicy = .refuse ∧ (sample8 0 0).cfg.hazardPolicy = .immediate) ∧
    (wordReads .approx 0x01005021 8 ∧ ¬wordLwlLwr 0x01005021 8) ∧
    (wordReads .exact 0x99280000 8 ∧ wordLwlLwr 0x99280000 8) ∧
    (wordGteCommand 0x4B400006 ∧ ¬wordReads .exact 0x4B400006 0) ∧ wordWritesHiLo 0x01200011 ∧
    wordLoads 0x8D090000 9 ∧ ¬wordLoads 0x8D000000 0 ∧ wordWritesGte 0x48890800 ∧ wordReadsHiLo 0x00004010 := by
  simp only [wordReads, readsRs, readsRt, wordLwlLwr, wordGteCommand, wordWritesHiLo, wordLoads, wordWritesGte,
    wordReadsHiLo]
  refine ⟨⟨?_, ?_⟩, ⟨?_, ?_⟩, ⟨?_, ?_⟩, ⟨?_, ?_⟩, ?_, ?_, ?_, ?_, ?_⟩ <;> decide

/-- Steps under refuse that answer: a load, and an exception. -/
theorem test_witness_HazardRefusals_next :
    after (refusing (start 0x8D090000 [(8, 0x80000100)])) (fun t => decide (t.lastLoadDest = some 9)) = true ∧
      after (refusing (start 0x0000000C [])) (fun t => decide (t.pc = 0xBFC00180 ∧ t.lastLoadDest = none)) = true ∧
      (∃ u, Reaches (refusing (start 0x8D090000 [(8, 0x80000100)])) 0x8D090000 u) :=
  ⟨by decide, by decide, ⟨_, by decide, by decide, by decide, by decide, _, by rfl, rfl⟩⟩

/-- A state with the invariant, and a step from it. -/
theorem test_witness_InvariantKept :
    (start 0x25080001 []).Inv ∧ after (start 0x25080001 []) (fun _ => true) = true := by decide

/-- The same for the register bank under field. -/
theorem test_witness_GteFieldInvariantKept :
    (field (start 0x48890800 [])).cfg.gteMoveMode = .field ∧ (start 0x48890800 []).gte.fieldWf ∧
      after (field (start 0x48890800 [])) (fun _ => true) = true := by decide

end Sys2Proof.Machine
end

section
/-! Every way an instruction can answer a next state, said once (`exec_effect`), and the whole-machine rules about
the general registers, HI and LO that follow from it (10_state.md R43, R47). -/

namespace Sys2Proof.Machine

/-! ## The effects an instruction can have -/

/-- The next states instruction `i` may answer in state `s`, with what `i` must be for each. -/
inductive Effect (i : Instr) (s : State) : State → Prop
  | writesReg {r : Reg} {v : Word} (dest : i.gprDest = some r) : Effect i s (s.setReg r v)
  | raises {c : ExcCode} {a : Option Word} (may : i.mayRaise = true) : Effect i s (s.enter c a)
  | jumps {target : Word} : Effect i s (s.takeBranch target)
  | jumpsAndLinks {target v : Word} {r : Reg} (dest : i.gprDest = some r) :
      Effect i s ((s.takeBranch target).setReg r v)
  | branches {c : Bool} {imm : BitVec 16} : Effect i s (s.branchIf c imm)
  | branchesAndLinks {c : Bool} {imm : BitVec 16} {v : Word} {r : Reg} (dest : i.gprDest = some r) :
      Effect i s ((s.branchIf c imm).setReg r v)
  | loads {ea w v : Word} {n : Width} {u : State} {r : Reg} (dest : i.gprDest = some r)
      (read : memRead ea n s = .ok (w, u)) : Effect i s (u.setReg r v)
  | loadsGte {ea w v : Word} {n : Width} {u : State} {r : Reg} (gte : i.writesGte = true)
      (read : memRead ea n s = .ok (w, u)) : Effect i s (u.gteWriteD r v)
  | stores {ea v : Word} {n : Width} {t : State} (store : i.isStore = true)
      (write : memWrite ea n v s = .ok t) : Effect i s t
  | merges {ea m v : Word} {u t : State} (store : i.isStore = true)
      (read : memRead (alignedWord ea) .word s = .ok (m, u))
      (write : memWrite (alignedWord ea) .word v u = .ok t) : Effect i s t
  | writesHiLo {hi lo : Word} (hiLo : writesHiLo i = true) : Effect i s (s.setHiLo hi lo)
  | writesCop0 {rt n : Reg} (is : i = .mtc0 rt n) : Effect i s (s.setCop0 n (s.getReg rt))
  | leaves (is : i = .rfe) : Effect i s s.leave
  | writesGteD {n : Reg} {v : Word} (gte : i.writesGte = true) : Effect i s (s.gteWriteD n v)
  | writesGteC {n : Reg} {v : Word} (gte : i.writesGte = true) : Effect i s (s.gteWriteC n v)
  | runsCommand {c : GteCmd} {body : Gte → Gte} (cmd : i.gteCmd = some c) :
      Effect i s { s with gte := s.gte.frame body }
  | records {d : Diagnostic} : Effect i s (s.record d)

section
variable {i : Instr} {s t : State}

/-- An answer that is a next state outright. -/
theorem Effect.of_next {u : State} (h : (.next u : Result) = .next t) (e : Effect i s u) : Effect i s t :=
  Host.Outcome.next.inj h ▸ e

theorem ne_byte_of_misaligned {n : Width} {ea : Word} (h : misaligned n ea = true) : n ≠ .byte := by
  rintro rfl
  simp [misaligned, Width.bytes, Nat.mod_one] at h

theorem Effect.of_writeRegOrOverflow {r : Reg} {v : Word} {trap : Bool} (dest : i.gprDest = some r)
    (may : i.mayRaise = true) (h : writeRegOrOverflow r v trap s = .next t) : Effect i s t := by
  cases trap with
  | true => exact .of_next h (.raises may)
  | false => exact .of_next h (.writesReg dest)

/-- A load to a general register; byte accesses are never misaligned, so they never raise. -/
theorem Effect.of_loadReg {n : Width} {ext : Word → Word} {r : Reg} {ea : Word} (dest : i.gprDest = some r)
    (may : n ≠ .byte → i.mayRaise = true) (h : loadReg n ext r ea s = .next t) : Effect i s t := by
  obtain ⟨hm, rfl⟩ | ⟨-, v, u, hread, rfl⟩ := loadWith_next h
  · exact .raises (may (ne_byte_of_misaligned hm))
  · exact .loads dest hread

theorem Effect.of_loadUnaligned {ea : Word} {r : Reg} {merge : Word → Word → Word → Word}
    (dest : i.gprDest = some r) (h : loadUnaligned ea r merge s = .next t) : Effect i s t := by
  obtain ⟨w, u, hread, ⟨-, rfl⟩ | ⟨-, rfl⟩⟩ := loadUnaligned_next h
  · exact .loads dest hread
  · exact .loads dest hread

theorem Effect.of_loadGte {n : Width} {r : Reg} {ea : Word} (gte : i.writesGte = true) (may : i.mayRaise = true)
    (h : loadWith n ea (fun v u => u.gteWriteD r v) s = .next t) : Effect i s t := by
  obtain ⟨-, rfl⟩ | ⟨-, v, u, hread, rfl⟩ := loadWith_next h
  · exact .raises may
  · exact .loadsGte gte hread

theorem Effect.of_storeWith {n : Width} {ea v : Word} (store : i.isStore = true)
    (may : n ≠ .byte → i.mayRaise = true) (h : storeWith n ea v s = .next t) : Effect i s t := by
  obtain ⟨hm, rfl⟩ | ⟨-, hwrite⟩ := storeWith_next h
  · exact .raises (may (ne_byte_of_misaligned hm))
  · exact .stores store hwrite

theorem Effect.of_storeUnaligned {ea : Word} {r : Reg} {merge : Word → Word → Word → Word}
    (store : i.isStore = true) (h : storeUnaligned ea r merge s = .next t) : Effect i s t := by
  obtain ⟨-, hwrite⟩ | ⟨-, hpartial⟩ := storeUnaligned_next h
  · exact .stores store hwrite
  · obtain ⟨-, m, u, hread, hwrite⟩ := storePartial_next hpartial
    exact .merges store hread hwrite

theorem Effect.of_gteCommand {c : GteCmd} {body : Gte → Gte} (cmd : i.gteCmd = some c)
    (h : gteCommand c body s = .next t) : Effect i s t := by
  unfold gteCommand at h
  split at h
  · exact .of_next h (.runsCommand cmd)
  · exact .of_next h .records

/-- What an instruction can do: whenever `exec` answers a next state, it is one of the effects. The cases follow
the families of the dispatch; every row not named (COP0 and COP2 words without a meaning, unimplemented words)
only records a diagnostic. -/
theorem exec_effect (h : exec i s = .next t) : Effect i s t := by
  cases i with
  | add | sub | addi => exact .of_writeRegOrOverflow rfl rfl h
  | addu | subu | and | or | xor | nor | slt | sltu
  | sll | srl | sra | sllv | srlv | srav
  | addiu | slti | sltiu | andi | ori | xori | lui
  | mfhi | mflo | mfc0 | mfc2 | cfc2 => exact .of_next h (.writesReg rfl)
  | mult | multu | div | divu | mthi | mtlo => exact .of_next h (.writesHiLo rfl)
  | j | jr => exact .of_next h .jumps
  | jal | jalr => exact .of_next h (.jumpsAndLinks rfl)
  | beq | bne | blez | bgtz | bltz | bgez => exact .of_next h .branches
  | bltzal | bgezal => exact .of_next h (.branchesAndLinks rfl)
  | lb | lbu => exact .of_loadReg rfl (absurd rfl) h
  | lh | lhu | lw => exact .of_loadReg rfl (fun _ => rfl) h
  | lwl | lwr => exact .of_loadUnaligned rfl h
  | sb => exact .of_storeWith rfl (absurd rfl) h
  | sh | sw | swc2 => exact .of_storeWith rfl (fun _ => rfl) h
  | swl | swr => exact .of_storeUnaligned rfl h
  | syscall | break_ => exact .of_next h (.raises rfl)
  | mtc0 => exact .of_next h (.writesCop0 rfl)
  | rfe => exact .of_next h (.leaves rfl)
  | mtc2 => exact .of_next h (.writesGteD rfl)
  | ctc2 => exact .of_next h (.writesGteC rfl)
  | lwc2 => exact .of_loadGte rfl rfl h
  | gteRtps | gteNclip | gteOp | gteDpcs | gteIntpl | gteMvmva | gteNcds | gteCdp | gteNcdt | gteNccs | gteCc
  | gteNcs | gteNct | gteSqr | gteDcpl | gteDpct | gteAvsz3 | gteAvsz4 | gteRtpt | gteGpf | gteGpl
  | gteNcct => exact .of_gteCommand rfl h
  | _ => exact .of_next h .records

end

/-! ## What an effect leaves of the general registers, HI and LO -/

section
variable {s t u : State}

theorem memRead_registers {ea v : Word} {n : Width} (h : memRead ea n s = .ok (v, t)) :
    t.regs = s.regs ∧ t.hi = s.hi ∧ t.lo = s.lo := by
  rw [(memRead_state h).1]
  exact ⟨rfl, rfl, rfl⟩

theorem memWrite_registers {ea v : Word} {n : Width} (h : memWrite ea n v s = .ok t) :
    t.regs = s.regs ∧ t.hi = s.hi ∧ t.lo = s.lo := by
  rw [(memWrite_state h).1]
  exact ⟨rfl, rfl, rfl⟩

theorem getReg_congr (h : t.regs = s.regs) (r : Reg) : t.getReg r = s.getReg r := by
  simp only [State.getReg, h]

theorem setReg_regs_congr (h : t.regs = s.regs) (r : Reg) (v : Word) :
    (t.setReg r v).regs = (s.setReg r v).regs := by
  unfold State.setReg
  split
  · exact h
  · simp only [h]

/-- The storage of register 0 is never written (R41). -/
theorem setReg_regs_zero (s : State) (r : Reg) (v : Word) :
    (s.setReg r v).regs[(0 : Reg)] = s.regs[(0 : Reg)] := by
  unfold State.setReg
  split_ifs with h
  · rfl
  · exact Vector.getElem_set_ne r.isLt (0 : Reg).isLt fun e => h (Fin.ext e)

end

section
variable {i : Instr} {s t : State}

/-- The general registers after an effect: as before, or one write of the destination. -/
theorem Effect.regs_cases (e : Effect i s t) :
    t.regs = s.regs ∨ ∃ r v, i.gprDest = some r ∧ t.regs = (s.setReg r v).regs := by
  cases e with
  | writesReg dest => exact .inr ⟨_, _, dest, rfl⟩
  | jumpsAndLinks dest => exact .inr ⟨_, _, dest, setReg_regs_congr (takeBranch_regs ..) ..⟩
  | branchesAndLinks dest => exact .inr ⟨_, _, dest, setReg_regs_congr (branchIf_regs ..) ..⟩
  | loads dest read => exact .inr ⟨_, _, dest, setReg_regs_congr (memRead_registers read).1 ..⟩
  | loadsGte _ read => exact .inl (memRead_registers read).1
  | stores _ write => exact .inl (memWrite_registers write).1
  | merges _ read write => exact .inl ((memWrite_registers write).1.trans (memRead_registers read).1)
  | _ => left; simp

/-- HI and LO after an effect: both as before, unless the instruction is one of their writers. -/
theorem Effect.hiLo_cases (e : Effect i s t) : (t.hi = s.hi ∧ t.lo = s.lo) ∨ Machine.writesHiLo i = true := by
  cases e with
  | writesHiLo hiLo => exact .inr hiLo
  | loads _ read | loadsGte _ read => exact .inl (by simpa using (memRead_registers read).2)
  | stores _ write => exact .inl (memWrite_registers write).2
  | merges _ read write =>
    obtain ⟨-, hhi, hlo⟩ := memRead_registers read
    exact .inl (by simpa [hhi, hlo] using (memWrite_registers write).2)
  | _ => left; simp

theorem Effect.gprDest_of_changed (e : Effect i s t) {r : Reg} (h : t.getReg r ≠ s.getReg r) :
    i.gprDest = some r := by
  obtain hregs | ⟨q, v, hdest, hregs⟩ := e.regs_cases
  · exact absurd (getReg_congr hregs r) h
  · rw [getReg_congr hregs] at h
    have hr : r = q := by_contra fun hne => h (getReg_setReg_ne s v hne)
    rw [hdest, hr]

theorem Effect.regs_zero (e : Effect i s t) : t.regs[(0 : Reg)] = s.regs[(0 : Reg)] := by
  obtain hregs | ⟨r, v, -, hregs⟩ := e.regs_cases
  · rw [hregs]
  · rw [hregs, setReg_regs_zero]

end

/-- Settles O33: the registers a next state may differ in are those of the instruction's effect. -/
theorem registerWriters : Obligations.RegisterWriters := by
  intro i s t h
  have e := exec_effect h
  refine ⟨fun r => e.gprDest_of_changed, getReg_zero t, e.regs_zero, ?_, ?_⟩
  · exact fun hhi => e.hiLo_cases.resolve_left fun kept => hhi kept.1
  · exact fun hlo => e.hiLo_cases.resolve_left fun kept => hlo kept.2

end Sys2Proof.Machine
end

section
/-! What the decoder reads of a word and what it leaves unread: the fields R184 lists, and the unread bits of a GTE
command word (30_encoding.md R183, R184, 80_gte.md R441). -/

namespace Sys2Proof

/-! ## The registers of an R-format word -/

section
variable (op : BitVec 6) (a b c d : BitVec 5) (f : BitVec 6)

@[simp] theorem rs_rFormat : rs (rFormat op a b c d f) = regOf a := congrArg regOf (rsField_rFormat ..)
@[simp] theorem rt_rFormat : rt (rFormat op a b c d f) = regOf b := congrArg regOf (rtField_rFormat ..)
@[simp] theorem rd_rFormat : rd (rFormat op a b c d f) = regOf c := congrArg regOf (rdField_rFormat ..)

/-- An R-format word decodes by its opcode; the opcode is a variable, so that `simp` finds it in its own spelling. -/
theorem decodeWord_rFormat : decodeWord (rFormat op a b c d f) = instructionOf op (rFormat op a b c d f) :=
  decodeWord_op (opField_rFormat ..)

end

/-! ## The GTE command table -/

theorem mvmMatrixOf_eq_ite (b : BitVec 2) :
    mvmMatrixOf b = if b = 0 then .rt else if b = 1 then .llm else if b = 2 then .lcm else .garbage := by
  unfold mvmMatrixOf
  split <;> simp_all

theorem mvmVectorOf_eq_ite (b : BitVec 2) :
    mvmVectorOf b = if b = 0 then .v0 else if b = 1 then .v1 else if b = 2 then .v2 else .ir := by
  unfold mvmVectorOf
  split <;> simp_all

theorem mvmTranslationOf_eq_ite (b : BitVec 2) :
    mvmTranslationOf b = if b = 0 then .tr else if b = 1 then .bk else if b = 2 then .fc else .zero := by
  unfold mvmTranslationOf
  split <;> simp_all

/-- A number the list of R183 does not have is the unknown command. -/
theorem gteCommandOf_of_notMem {cmd : BitVec 6} (w : Word) (h : cmd ∉ gteCmdNumbers) :
    gteCommandOf cmd w = .gteUnknown cmd := by
  unfold gteCommandOf
  split
  case h_23 => rfl
  all_goals exact absurd (by decide) h

end Sys2Proof

namespace Sys2Proof.Machine

/-- Settles O3: on each format the decoder's table is entered by the opcode and function fields alone, and its row
reads only the fields it names. -/
theorem shouldBeZeroFieldsIgnored : Obligations.ShouldBeZeroFieldsIgnored := by
  refine ⟨fun rd rt x sh => ?shifts, fun rd rs x y z => ?jumpsAndHiLoMoves, fun rs rt x z => ?multiplyDivide,
    fun rd rs rt z => ?threeRegisters, fun rt rd x y => ?coprocessorMoves, fun x => ?cop0Operations,
    fun code code' s => ?traps⟩
  case shifts | jumpsAndHiLoMoves | multiplyDivide | threeRegisters =>
    simp [decodeWord_rFormat, instructionOf, decodeSpecial, specialOf]
  case coprocessorMoves =>
    simp [decodeWord_rFormat, instructionOf, decodeCop0, cop0MoveOf, decodeCop2, cop2Of]
  case cop0Operations =>
    exact ⟨decodeWord_copWord x 0x01, decodeWord_copWord x 0x02, decodeWord_copWord x 0x06,
      decodeWord_copWord x 0x08, decodeWord_copWord x 0x10⟩
  case traps =>
    refine ⟨?_, ?_, rfl, rfl⟩ <;> simp [decodeWord_codeFormat, specialOf]

/-- Settles O4: the word is `gteWord`, so it decodes by the row its command number selects, and the row's fields
are those of `gteWord`. -/
theorem gteCommandWordFields : Obligations.GteCommandWordFields := by
  intro r b20 sf lm mx v cv x y cmd h0 h2 h4 h6 w
  have hw : decodeWord w = gteCommandOf cmd (gteWord r b20 sf mx v cv x lm y cmd) :=
    decodeWord_gteWord r b20 sf mx v cv x lm y cmd h0 h2 h4 h6
  rw [hw]
  refine ⟨?_, ?_, ?_, ?_, ?_, ?mvmva, ?_, ?_, ?_, ?_, ?_, ?_, ?_, ?_, ?_, ?_, ?_, ?_, ?_, ?_, ?_, ?_,
    gteCommandOf_of_notMem _⟩
  case mvmva =>
    rintro rfl
    simp [gteCommandOf, mvmMatrixOf_eq_ite, mvmVectorOf_eq_ite, mvmTranslationOf_eq_ite]
  all_goals
    rintro rfl
    simp [gteCommandOf]

end Sys2Proof.Machine
end


section
/-! Exception entry as `Entered` says it (60_exceptions.md R562-R567), from the bits of the Cause and Status words it
writes. -/

namespace Sys2Proof.Machine

/-! ## The bits of the words entry writes -/

/-- The bits of Cause that entry replaces: BD and ExcCode. -/
theorem getLsbD_causeMask : ∀ k < 32, (0x8000007C : Word).getLsbD k = decide (k = 31 ∨ (2 ≤ k ∧ k ≤ 6)) := by decide

/-- The six bits of the Status stack. -/
theorem getLsbD_statusMask : ∀ k < 32, (0x3F : Word).getLsbD k = decide (k < 6) := by decide

theorem getLsbD_boolWord (b : Bool) (k : Nat) : (boolWord b).getLsbD k = (decide (k = 0) && b) := by
  cases b <;> simp [boolWord]

theorem getLsbD_causeOnEntry (cause : Word) (code : ExcCode) (bd : Bool) {k : Nat} (hk : k < 32) :
    (causeOnEntry cause code bd).getLsbD k =
      if k = 31 then bd else if 2 ≤ k ∧ k ≤ 6 then code.number.getLsbD (k - 2) else cause.getLsbD k := by
  simp only [causeOnEntry, BitVec.getLsbD_or, BitVec.getLsbD_and, BitVec.getLsbD_not, BitVec.getLsbD_shiftLeft,
    getLsbD_causeMask k hk, getLsbD_boolWord, BitVec.getLsbD_setWidth]
  split_ifs with h31 hcode
  · simp [h31]
  · have h : k < 31 ∧ ¬k < 2 ∧ k - 2 < 32 := by omega
    simp [hcode, h, hk]
  · have h : k < 31 := by omega
    by_cases h2 : k < 2
    · simp [hk, h31, hcode, h, h2]
    · have h7 : 5 ≤ k - 2 := by omega
      simp [hk, h31, hcode, h, BitVec.getLsbD_of_ge _ _ h7]

theorem getLsbD_statusPush (status : Word) {k : Nat} (hk : k < 32) :
    (statusPush status).getLsbD k =
      if k < 6 then !decide (k < 2) && status.getLsbD (k - 2) else status.getLsbD k := by
  simp only [statusPush, BitVec.getLsbD_or, BitVec.getLsbD_and, BitVec.getLsbD_not, BitVec.getLsbD_shiftLeft,
    getLsbD_statusMask k hk]
  by_cases h : k < 6 <;> simp [h, hk]

theorem extractLsb'_excCode_causeOnEntry (cause : Word) (code : ExcCode) (bd : Bool) :
    (causeOnEntry cause code bd).extractLsb' 2 5 = code.number := by
  apply BitVec.eq_of_getLsbD_eq
  intro i hi
  have h : 2 + i ≠ 31 ∧ 2 + i ≤ 6 := by omega
  simp only [BitVec.getLsbD_extractLsb', hi, getLsbD_causeOnEntry cause code bd (show 2 + i < 32 by omega)]
  simp [h]

theorem extractLsb'_low_statusPush (status : Word) :
    (statusPush status).extractLsb' 0 6 = status.extractLsb' 0 4 ++ 0#2 := by
  apply BitVec.eq_of_getLsbD_eq
  intro i hi
  simp only [BitVec.getLsbD_extractLsb', BitVec.getLsbD_append, getLsbD_statusPush status (show 0 + i < 32 by omega)]
  by_cases h : i < 2
  · simp [h, hi]
  · have h' : i - 2 < 4 := by omega
    simp [h, hi, h']

theorem extractLsb'_high_statusPush (status : Word) :
    (statusPush status).extractLsb' 6 26 = status.extractLsb' 6 26 := by
  apply BitVec.eq_of_getLsbD_eq
  intro i hi
  simp [hi, getLsbD_statusPush status (show 6 + i < 32 by omega)]

/-- Entry leaves what `Entered` says, for every code and with or without a bad address. -/
theorem entered_enter (s : State) (code : ExcCode) (badVAddr : Option Word) :
    Entered code badVAddr s (s.enter code badVAddr) := by
  have hcause : (s.enter code badVAddr).getCop0 13 = causeOnEntry s.cause code s.inDelaySlot := enter_cause ..
  have hstatus : (s.enter code badVAddr).getCop0 12 = statusPush s.status := enter_status ..
  simp only [Entered, hcause, hstatus]
  refine ⟨enter_epc .., getLsbD_causeOnEntry _ _ _ (by decide), extractLsb'_excCode_causeOnEntry .., ?causeKept,
    extractLsb'_low_statusPush _, extractLsb'_high_statusPush _, enter_badVAddr .., enter_pc .., rfl,
    enter_branchTarget .., rfl, rfl, rfl, rfl, ?frame, ?memory⟩
  case causeKept =>
    intro k hk hk'
    by_cases h : k < 32
    · rw [getLsbD_causeOnEntry _ _ _ h, if_neg hk, if_neg (by omega)]
      rfl
    · simp only [BitVec.getLsbD_of_ge _ k (Nat.le_of_not_lt h)]
  case frame =>
    refine ⟨by simp, fun n hn => ?_, by simp⟩
    simp only [List.mem_cons, List.not_mem_nil, not_or] at hn
    simp [enter_getCop0, hn]
  case memory => apply memoryKept_of <;> simp

end Sys2Proof.Machine
end

section
/-! The registers of an I-format word (30_encoding.md R172). -/

namespace Sys2Proof

section
variable (op : BitVec 6) (a b : BitVec 5) (imm : BitVec 16)

@[simp] theorem rs_iFormat : rs (iFormat op a b imm) = regOf a := congrArg regOf (rsField_iFormat ..)
@[simp] theorem rt_iFormat : rt (iFormat op a b imm) = regOf b := congrArg regOf (rtField_iFormat ..)

end

end Sys2Proof
end

section
/-! The ALU instructions (40_alu.md R220-R245): the value each computes, as the statements write it on integers, and
the trap of add, sub and addi (R221). -/

namespace Sys2Proof.Machine

/-! ## The model's values on integers -/

section
variable (a b v : Word) (n : Nat) (imm : BitVec 16)

theorem boolWord_decide (p : Prop) [Decidable p] : boolWord (decide p) = if p then 1 else 0 := by
  simp [boolWord]

theorem shiftLeft_eq_ofNat : v <<< n = BitVec.ofNat 32 (v.toNat * 2 ^ n) := by
  apply BitVec.eq_of_toNat_eq
  simp [Nat.shiftLeft_eq]

theorem ushiftRight_eq_ofNat : v >>> n = BitVec.ofNat 32 (v.toNat / 2 ^ n) := by
  rw [← Nat.shiftRight_eq_div_pow, ← BitVec.toNat_ushiftRight, BitVec.ofNat_toNat, BitVec.setWidth_eq]

theorem sshiftRight_eq_ofInt : v.sshiftRight n = BitVec.ofInt 32 (v.toInt / 2 ^ n) := by
  rw [BitVec.sshiftRight, Int.shiftRight_eq_div_pow]
  norm_cast

/-- Only bits 4:0 of the register count (R176). -/
theorem toNat_shiftAmount : (shiftAmount v).toNat = v.toNat % 32 := BitVec.toNat_setWidth 5 v

theorem sext16_eq_ofInt : sext16 imm = BitVec.ofInt 32 imm.toInt := rfl

theorem toInt_sext16 : (sext16 imm).toInt = imm.toInt := BitVec.toInt_signExtend_of_le (by decide)

theorem zext16_eq_ofNat : zext16 imm = BitVec.ofNat 32 imm.toNat := (BitVec.ofNat_toNat 32 imm).symm

theorem upper16_eq_append : upper16 imm = imm ++ 0#16 := by
  rw [upper16, BitVec.shiftLeft_eq_concat_of_lt (by decide), BitVec.extractLsb'_setWidth_of_le (by decide),
    extract_whole]
  rfl

theorem add_eq_ofInt : a + b = BitVec.ofInt 32 (a.toInt + b.toInt) := by
  simp [BitVec.ofInt_add]

theorem sub_eq_ofInt : a - b = BitVec.ofInt 32 (a.toInt - b.toInt) := by
  simp [Int.sub_eq_add_neg, BitVec.ofInt_add, BitVec.ofInt_neg, BitVec.sub_eq_add_neg]

end

/-! ## Signed overflow (R221) -/

/-- The exact integer is a 32-bit signed value. -/
def FitsSigned (m : Int) : Prop := -2 ^ 31 ≤ m ∧ m ≤ 2 ^ 31 - 1

theorem overflows_iff (m : Int) : overflows m = true ↔ ¬FitsSigned m := by
  simp only [overflows, FitsSigned, decide_eq_true_eq]
  omega

section
variable (a b : Word)

theorem addOverflows_eq_saddOverflow : addOverflows a b = a.saddOverflow b := by
  rw [Bool.eq_iff_iff]
  simp only [addOverflows, overflows, BitVec.saddOverflow, Bool.or_eq_true, decide_eq_true_eq]
  omega

theorem subOverflows_eq_ssubOverflow : subOverflows a b = a.ssubOverflow b := by
  rw [Bool.eq_iff_iff]
  simp only [subOverflows, overflows, BitVec.ssubOverflow, Bool.or_eq_true, decide_eq_true_eq]
  omega

/-- A sum overflows when both operands differ in sign from it. -/
theorem addOverflows_eq_signTest : addOverflows a b = ((a ^^^ (a + b)) &&& (b ^^^ (a + b))).getLsbD 31 := by
  rw [addOverflows_eq_saddOverflow, BitVec.saddOverflow_eq]
  simp only [BitVec.getLsbD_and, BitVec.getLsbD_xor, BitVec.msb_eq_getLsbD_last]
  cases a.getLsbD 31 <;> cases b.getLsbD 31 <;> simp

/-- A difference overflows when the operands differ in sign and the first differs in sign from it. -/
theorem subOverflows_eq_signTest : subOverflows a b = ((a ^^^ b) &&& (a ^^^ (a - b))).getLsbD 31 := by
  rw [subOverflows_eq_ssubOverflow, BitVec.ssubOverflow_eq]
  simp only [BitVec.getLsbD_and, BitVec.getLsbD_xor, BitVec.msb_eq_getLsbD_last]
  cases a.getLsbD 31 <;> cases b.getLsbD 31 <;> simp

end

/-! ## The two shapes of an ALU instruction -/

section
variable {i : Instr} {s : State} {r : Reg} {v v' : Word}

theorem writesReg_of_writeReg (h : exec i s = writeReg r v s) (hv : v = v') : WritesReg i s r v' :=
  writesReg_setReg (hv ▸ h)

/-- An instruction that writes the exact integer `m` or overflows. -/
theorem writesReg_or_traps {m : Int} (h : exec i s = writeRegOrOverflow r v (overflows m) s)
    (hv : v = BitVec.ofInt 32 m) :
    (FitsSigned m → WritesReg i s r (BitVec.ofInt 32 m)) ∧ (¬FitsSigned m → Traps i s .ov none) := by
  constructor
  · intro hfits
    have hno : overflows m = false := Bool.eq_false_iff.2 fun ho => (overflows_iff m).1 ho hfits
    exact writesReg_of_writeReg (h.trans (by rw [hno]; rfl)) hv
  · intro hfits
    have ho : overflows m = true := (overflows_iff m).2 hfits
    exact ⟨_, h.trans (by rw [ho]; rfl), entered_enter s .ov none⟩

end

/-! ## The obligations -/

/-- Settles O6: each instruction is one register write of the value its rule names. -/
theorem registerAluResults : Obligations.RegisterAluResults := by
  intro s rd rs rt sh
  obtain ⟨-, -, -, hdec, -⟩ := shouldBeZeroFieldsIgnored
  obtain ⟨-, -, -, -, haddu, -, hsubu, hand, hor, hxor, hnor, hslt, hsltu⟩ := hdec rd rs rt sh
  exact ⟨⟨haddu, writesReg_setReg rfl⟩, ⟨hsubu, writesReg_setReg rfl⟩, ⟨hand, writesReg_setReg rfl⟩,
    ⟨hor, writesReg_setReg rfl⟩, ⟨hxor, writesReg_setReg rfl⟩, ⟨hnor, writesReg_setReg rfl⟩,
    ⟨hslt, writesReg_of_writeReg rfl (boolWord_decide _)⟩, ⟨hsltu, writesReg_of_writeReg rfl (boolWord_decide _)⟩⟩

/-- Settles O7: each shift is one register write; the count of the variable shifts is the register's bits 4:0. -/
theorem shiftResults : Obligations.ShiftResults := by
  intro s rd rt rs sh x w v n
  obtain ⟨hconst, -, -, hvar, -⟩ := shouldBeZeroFieldsIgnored
  obtain ⟨hsll, hsrl, hsra⟩ := hconst rd rt x sh
  obtain ⟨hsllv, hsrlv, hsrav, -⟩ := hvar rd rs rt x
  have hn : n = (shiftAmount (s.getReg rs)).toNat := (toNat_shiftAmount _).symm
  rw [hn]
  exact ⟨⟨hsll, writesReg_of_writeReg rfl (shiftLeft_eq_ofNat ..)⟩,
    ⟨hsrl, writesReg_of_writeReg rfl (ushiftRight_eq_ofNat ..)⟩,
    ⟨hsra, writesReg_of_writeReg rfl (sshiftRight_eq_ofInt ..)⟩,
    ⟨hsllv, writesReg_of_writeReg rfl (shiftLeft_eq_ofNat ..)⟩,
    ⟨hsrlv, writesReg_of_writeReg rfl (ushiftRight_eq_ofNat ..)⟩,
    ⟨hsrav, writesReg_of_writeReg rfl (sshiftRight_eq_ofInt ..)⟩⟩

/-- Settles O8: each instruction is one register write of its rule's value for the extended immediate. -/
theorem immediateAluResults : Obligations.ImmediateAluResults := by
  intro s rt rs x imm w a sx zx
  have hsx : sx = sext16 imm := (sext16_eq_ofInt imm).symm
  have hzx : zx = zext16 imm := (zext16_eq_ofNat imm).symm
  rw [hsx, hzx, ← toInt_sext16 imm]
  refine ⟨⟨?_, writesReg_setReg rfl⟩, ⟨?_, writesReg_of_writeReg rfl (boolWord_decide _)⟩,
    ⟨?_, writesReg_of_writeReg rfl (boolWord_decide _)⟩, ⟨?_, writesReg_setReg rfl⟩, ⟨?_, writesReg_setReg rfl⟩,
    ⟨?_, writesReg_setReg rfl⟩, ⟨?_, writesReg_of_writeReg rfl (upper16_eq_append imm)⟩⟩
  all_goals simp [w, decodeWord_iFormat, instructionOf]

/-- Settles O9: the model's overflow test is the range of the exact integer, and it is the sign test of R221. -/
theorem trappingAddAndSub : Obligations.TrappingAddAndSub := by
  refine ⟨fun s rd rs rt sh imm => ?instructions, fun a b => ⟨?addTest, ?subTest⟩⟩
  case instructions =>
    obtain ⟨-, -, -, hdec, -⟩ := shouldBeZeroFieldsIgnored
    obtain ⟨-, -, -, hadd, -, hsub, -⟩ := hdec rd rs rt sh
    have haddi := writesReg_or_traps (i := .addi rt rs imm) (s := s) rfl (add_eq_ofInt ..)
    rw [toInt_sext16] at haddi
    exact ⟨⟨hadd, writesReg_or_traps rfl (add_eq_ofInt ..)⟩, ⟨hsub, writesReg_or_traps rfl (sub_eq_ofInt ..)⟩,
      by simp [decodeWord_iFormat, instructionOf], haddi⟩
  case addTest =>
    rw [← addOverflows_eq_signTest]
    exact (overflows_iff _).symm
  case subTest =>
    rw [← subOverflows_eq_signTest]
    exact (overflows_iff _).symm

end Sys2Proof.Machine
end

section
/-! Multiply, divide and the moves to and from HI and LO (41_muldiv.md R280-R289): the two halves of a product joined
again, the quotient and the remainder on integers, and the frame of every write of HI or LO. -/

namespace Sys2Proof.Machine

/-! ## Writes of HI and LO -/

section
variable {f : Footprint} {s : State} {hi lo : Word}

/-- A write of HI and LO is within a footprint that names the halves it changes. -/
theorem frame_setHiLo (hhi : f.hi = false → hi = s.hi) (hlo : f.lo = false → lo = s.lo) :
    Frame f s (s.setHiLo hi lo) := by
  simpa [Frame] using ⟨hhi, hlo⟩

theorem memoryKept_setHiLo : memoryKept s (s.setHiLo hi lo) := by
  apply memoryKept_of <;> simp

end

/-! ## Products (R281, R282) -/

section
variable (s : State) (m : Int)

/-- The shift by 32 is the floor of the division by 2^32; the two spellings of the shift agree on either sign. -/
theorem setProduct_hi : (s.setProduct m).hi = BitVec.ofInt 32 (m / 2 ^ 32) := by
  have hshift : (s.setProduct m).hi = BitVec.ofInt 32 (m >>> (32 : ℕ)) := by cases m <;> rfl
  rw [hshift, Int.shiftRight_eq_div_pow]
  rfl

theorem setProduct_lo : (s.setProduct m).lo = BitVec.ofInt 32 m := rfl

/-- HI and LO joined are the low 64 bits of the integer. -/
theorem append_setProduct : ((s.setProduct m).hi ++ (s.setProduct m).lo : BitVec 64) = BitVec.ofInt 64 m := by
  rw [setProduct_hi, setProduct_lo]
  apply BitVec.eq_of_toNat_eq
  rw [BitVec.toNat_append, ← Nat.shiftLeft_add_eq_or_of_lt (BitVec.isLt _), Nat.shiftLeft_eq]
  simp only [BitVec.toNat_ofInt]
  omega

end

section
variable (s : State) (a b : Word)

/-- A product of signed words lies within ±2^62. -/
theorem toInt_append_setProduct :
    ((s.setProduct (a.toInt * b.toInt)).hi ++ (s.setProduct (a.toInt * b.toInt)).lo : BitVec 64).toInt =
      a.toInt * b.toInt := by
  rw [append_setProduct]
  have hle : a.toInt * b.toInt ≤ 2 ^ 62 := BitVec.toInt_mul_toInt_le
  have hge : -2 ^ 62 ≤ a.toInt * b.toInt := BitVec.le_toInt_mul_toInt
  exact BitVec.toInt_ofInt_eq_self (by decide) (by omega) (by omega)

/-- A product of unsigned words is below 2^64. -/
theorem toNat_append_setProduct :
    ((s.setProduct (a.toNat * b.toNat)).hi ++ (s.setProduct (a.toNat * b.toNat)).lo : BitVec 64).toNat =
      a.toNat * b.toNat := by
  have hlt : a.toNat * b.toNat < 2 ^ 64 :=
    (Nat.mul_lt_mul'' a.isLt b.isLt).trans_eq (Nat.pow_add 2 32 32).symm
  rw [append_setProduct, ← Int.natCast_mul, BitVec.ofInt_natCast, BitVec.toNat_ofNat, Nat.mod_eq_of_lt hlt]

end

/-! ## Quotients and remainders (R283, R284) -/

section
variable (n : Word) {d : Word}

theorem divQuotient_zero : divQuotient n 0 = if 0 ≤ n.toInt then 0xFFFFFFFF else 1 := rfl
theorem divRemainder_zero : divRemainder n 0 = n := rfl
theorem divuQuotient_zero : divuQuotient n 0 = 0xFFFFFFFF := rfl
theorem divuRemainder_zero : divuRemainder n 0 = n := rfl

section
variable {n} (hd : d ≠ 0) (hpair : ¬(n = 0x80000000 ∧ d = 0xFFFFFFFF))
include hd hpair

/-- Apart from the overflow pair the truncated quotient is a word. -/
theorem toInt_divQuotient : (divQuotient n d).toInt = n.toInt.tdiv d.toInt := by
  have hq : (n.sdiv d).toInt = n.toInt.tdiv d.toInt :=
    BitVec.toInt_sdiv_of_ne_or_ne n d (not_and_or.mp hpair)
  rw [divQuotient, if_neg hd, if_neg hpair, ← hq, BitVec.ofInt_toInt]

theorem toInt_divRemainder : (divRemainder n d).toInt = n.toInt - n.toInt.tdiv d.toInt * d.toInt := by
  have hr : (n.srem d).toInt = n.toInt - n.toInt.tdiv d.toInt * d.toInt := by
    rw [BitVec.toInt_srem, Int.tmod_def, mul_comm]
  rw [divRemainder, if_neg hd, if_neg hpair, ← hr, BitVec.ofInt_toInt]

end

theorem toNat_divuQuotient (hd : d ≠ 0) : (divuQuotient n d).toNat = n.toNat / d.toNat := by
  rw [divuQuotient, if_neg hd, BitVec.toNat_ofNat]
  exact Nat.mod_eq_of_lt ((Nat.div_le_self ..).trans_lt n.isLt)

theorem toNat_divuRemainder (hd : d ≠ 0) : (divuRemainder n d).toNat = n.toNat % d.toNat := by
  rw [divuRemainder, if_neg hd, BitVec.toNat_ofNat]
  exact Nat.mod_eq_of_lt ((Nat.mod_le ..).trans_lt n.isLt)

end

/-! ## Truncated division of integers (R289) -/

theorem abs_tmod_lt {d : Int} (n : Int) (hd : d ≠ 0) : |n.tmod d| < |d| := by
  rw [Int.abs_eq_natAbs, Int.abs_eq_natAbs, Int.natAbs_tmod, Nat.cast_lt]
  exact Nat.mod_lt _ (Int.natAbs_pos.mpr hd)

/-- The remainder has the dividend's sign, unless it is zero. -/
theorem tmod_eq_zero_or_neg_iff (n d : Int) : n.tmod d = 0 ∨ (n.tmod d < 0 ↔ n < 0) := by
  by_cases hdvd : d ∣ n
  · exact .inl (Int.tmod_eq_zero_of_dvd hdvd)
  · have hsign : (n.tmod d).sign = n.sign := by rw [Int.sign_tmod, if_neg hdvd]
    right
    rw [← Int.sign_eq_neg_one_iff_neg, hsign, Int.sign_eq_neg_one_iff_neg]

/-! ## The obligations -/

/-- Settles O10: each multiply writes the two halves of a product that 64 bits hold. -/
theorem multiplyResults : Obligations.MultiplyResults := by
  intro s rs rt x z
  obtain ⟨-, -, hdec, -⟩ := shouldBeZeroFieldsIgnored
  obtain ⟨hmult, hmultu, -⟩ := hdec rs rt x z
  exact ⟨⟨hmult, _, rfl, toInt_append_setProduct .., frame_setHiLo nofun nofun, memoryKept_setHiLo⟩,
    ⟨hmultu, _, rfl, toNat_append_setProduct .., frame_setHiLo nofun nofun, memoryKept_setHiLo⟩⟩

/-- Settles O11: each divide writes its quotient and remainder, which are words but for the overflow pair. -/
theorem divideResults : Obligations.DivideResults := by
  intro s rs rt x z n d
  obtain ⟨-, -, hdec, -⟩ := shouldBeZeroFieldsIgnored
  obtain ⟨-, -, hdiv, hdivu⟩ := hdec rs rt x z
  refine ⟨⟨hdiv, s.setHiLo (divRemainder n d) (divQuotient n d), rfl, ?divByZero, ?overflow, ?truncated,
      frame_setHiLo nofun nofun, memoryKept_setHiLo⟩,
    ⟨hdivu, s.setHiLo (divuRemainder n d) (divuQuotient n d), rfl, ?divuByZero, ?floor,
      frame_setHiLo nofun nofun, memoryKept_setHiLo⟩⟩
  case divByZero =>
    intro hd
    rw [hd]
    exact ⟨divRemainder_zero n, divQuotient_zero n⟩
  case overflow =>
    intro hn hd
    rw [hn, hd]
    exact ⟨rfl, rfl⟩
  case truncated => exact fun hd hpair => ⟨toInt_divQuotient hd hpair, toInt_divRemainder hd hpair⟩
  case divuByZero =>
    intro hd
    rw [hd]
    exact ⟨divuRemainder_zero n, divuQuotient_zero n⟩
  case floor => exact fun hd => ⟨toNat_divuQuotient n hd, toNat_divuRemainder n hd⟩

/-- Settles O12: the laws follow from the values of O10 and O11 by those of integer division. -/
theorem multiplyDivideLaws : Obligations.MultiplyDivideLaws := by
  intro s rs rt n d
  obtain ⟨⟨-, t, hdiv, -, hoverflow, htruncated, -⟩, ⟨-, u, hdivu, -, hfloor, -⟩⟩ :=
    divideResults s rs rt 0 0
  obtain ⟨⟨-, v, hmult, hsigned, -⟩, ⟨-, w, hmultu, hunsigned, -⟩⟩ := multiplyResults s rs rt 0 0
  refine ⟨⟨t, hdiv, ?truncated, ?overflow⟩, ⟨u, hdivu, ?floor⟩, ⟨v, hmult, hsigned⟩,
    ⟨w, hmultu, hunsigned⟩⟩
  case truncated =>
    intro hd hpair
    obtain ⟨hlo, hhi⟩ := htruncated hd hpair
    have hmod : t.hi.toInt = n.toInt.tmod d.toInt := by rw [hhi, Int.tmod_def, mul_comm]
    rw [← BitVec.toInt_inj, hlo, hmod]
    exact ⟨(Int.tdiv_mul_add_tmod ..).symm, abs_tmod_lt _ (BitVec.toInt_ne.mpr hd), tmod_eq_zero_or_neg_iff ..⟩
  case overflow =>
    intro hn hd
    obtain ⟨hlo, hhi⟩ := hoverflow hn hd
    rw [hn, hd, hlo, hhi]
    decide
  case floor =>
    intro hd
    obtain ⟨hlo, hhi⟩ := hfloor hd
    rw [hlo, hhi]
    exact ⟨(Nat.div_add_mod' ..).symm, Nat.mod_lt _ (Nat.pos_of_ne_zero fun h => hd (BitVec.eq_of_toNat_eq h))⟩

/-- Settles O13: the moves from HI and LO are one register write, those to them a write that keeps the other half. -/
theorem hiLoMoves : Obligations.HiLoMoves := by
  intro s rd rs x y z
  obtain ⟨-, hdec, -⟩ := shouldBeZeroFieldsIgnored
  obtain ⟨-, -, hmfhi, hmthi, hmflo, hmtlo⟩ := hdec rd rs x y z
  exact ⟨⟨hmfhi, writesReg_setReg rfl⟩,
    ⟨hmthi, s.setHiLo (s.getReg rs) s.lo, rfl, rfl, frame_setHiLo nofun fun _ => rfl, memoryKept_setHiLo⟩,
    ⟨hmflo, writesReg_setReg rfl⟩,
    ⟨hmtlo, s.setHiLo s.hi (s.getReg rs), rfl, rfl, frame_setHiLo (fun _ => rfl) nofun, memoryKept_setHiLo⟩⟩

end Sys2Proof.Machine
end

section
/-! Control transfer (42_control.md R308-R325): what a jump and a conditional branch leave, linking or not, said once
for each; and the words that are branches or jumps, which a delay slot refuses (R312). -/

namespace Sys2Proof

/-! ## The words that are branches or jumps (R312) -/

section
variable (w : Word)

theorem specialOf_isBranchOrJump (f : BitVec 6) :
    (specialOf f w).isBranchOrJump = true ↔ f ∈ ([0x08, 0x09] : List (BitVec 6)) := by
  unfold specialOf
  split
  case h_9 | h_10 => exact iff_of_true rfl (by decide)
  case h_64 => exact iff_of_false nofun (by simp_all)
  all_goals exact iff_of_false nofun (by decide)

theorem regimmOf_isBranchOrJump (b : BitVec 5) :
    (regimmOf b w).isBranchOrJump = true ↔ b ∈ ([0x00, 0x01, 0x10, 0x11] : List (BitVec 5)) := by
  unfold regimmOf
  split
  case h_1 | h_2 | h_17 | h_18 => exact iff_of_true rfl (by decide)
  case h_32 => exact iff_of_false nofun (by simp_all)
  all_goals exact iff_of_false nofun (by decide)

theorem decodeCop0_isBranchOrJump : (decodeCop0 w).isBranchOrJump = false := by
  unfold decodeCop0 cop0OperationOf cop0MoveOf
  split <;> split <;> rfl

theorem gteCommandOf_isBranchOrJump (cmd : BitVec 6) : (gteCommandOf cmd w).isBranchOrJump = false := by
  unfold gteCommandOf
  split <;> rfl

theorem decodeCop2_isBranchOrJump : (decodeCop2 w).isBranchOrJump = false := by
  unfold decodeCop2 cop2Of
  split
  case h_5 => exact gteCommandOf_isBranchOrJump ..
  all_goals rfl

/-- Opcodes 0 and 1 ask their own tables; of the others only 2 to 7 are branches or jumps. -/
theorem instructionOf_isBranchOrJump (op : BitVec 6) :
    (instructionOf op w).isBranchOrJump = true ↔
      op ∈ ([0x02, 0x03, 0x04, 0x05, 0x06, 0x07] : List (BitVec 6)) ∨
      (op = 0x00 ∧ (decodeSpecial w).isBranchOrJump = true) ∨
      (op = 0x01 ∧ (decodeRegimm w).isBranchOrJump = true) := by
  unfold instructionOf
  split
  case h_1 | h_2 => simp
  case h_3 => simp [decodeCop0_isBranchOrJump]
  case h_4 => simp [decodeCop2_isBranchOrJump]
  case h_5 | h_6 | h_7 | h_8 | h_9 | h_10 => exact iff_of_true rfl (.inl (by decide))
  case h_64 => exact iff_of_false nofun (by simp_all)
  all_goals exact iff_of_false nofun (by simp)

end

end Sys2Proof

namespace Sys2Proof.Machine

/-! ## Branch state and link -/

/-- The link written when the instruction links (R310). -/
def State.writeLink (s : State) (link : Option Reg) (v : Word) : State :=
  link.elim s (s.setReg · v)

section
variable {s t : State} {link : Option Reg} {v : Word}

@[simp] theorem writeLink_branchPending : (s.writeLink link v).branchPending = s.branchPending := by
  cases link <;> simp [State.writeLink]

@[simp] theorem writeLink_branchTarget : (s.writeLink link v).branchTarget = s.branchTarget := by
  cases link <;> simp [State.writeLink]

theorem getReg_writeLink {r : Reg} (h : link = some r) : (s.writeLink link v).getReg r = written r v := by
  subst h
  exact getReg_setReg_self ..

/-- A link write is within a footprint that names the link register. -/
theorem frame_writeLink {f : Footprint} (h : Frame f s t) (hlink : ∀ r, link = some r → r ∈ f.regs) :
    Frame f s (t.writeLink link v) := by
  cases link with
  | none => exact h
  | some r => exact frame_setReg h v (hlink r rfl)

theorem memoryKept_writeLink (h : memoryKept s t) : memoryKept s (t.writeLink link v) := by
  cases link with
  | none => exact h
  | some r => exact memoryKept_setReg h

end

section
variable {s : State} {f : Footprint} {target : Word} {c : Bool} {imm : BitVec 16}

theorem frame_takeBranch (h : f.branchState = true) : Frame f s (s.takeBranch target) := by
  simp [Frame, h]

theorem memoryKept_takeBranch : memoryKept s (s.takeBranch target) := by
  apply memoryKept_of <;> simp

theorem frame_branchIf (h : f.branchState = true) : Frame f s (s.branchIf c imm) := by
  simp [Frame, h]

theorem memoryKept_branchIf : memoryKept s (s.branchIf c imm) := by
  apply memoryKept_of <;> simp

end

/-! ## The two shapes of a control transfer -/

section
variable {i : Instr} {s : State} {link : Option Reg}

/-- An instruction that takes the branch, then links, completes as `JumpsTo` says. -/
theorem jumpsTo_of_exec {target : Word}
    (h : exec i s = .next ((s.takeBranch target).writeLink link (linkValue s.pc))) : JumpsTo i s target link :=
  ⟨_, h, by simp, by simp, fun _ => getReg_writeLink, frame_writeLink (frame_takeBranch rfl) (by simp),
    memoryKept_writeLink memoryKept_takeBranch⟩

/-- An instruction that branches on `c`, then links taken or not, completes as `BranchesIf` says. -/
theorem branchesIf_of_exec {c : Bool} {p : Prop} {imm : BitVec 16}
    (h : exec i s = .next ((s.branchIf c imm).writeLink link (linkValue s.pc))) (hc : c = true ↔ p) :
    BranchesIf i s p imm link := by
  refine ⟨_, h, fun hp => ?taken, fun hp => ?notTaken, fun _ => getReg_writeLink,
    frame_writeLink (frame_branchIf rfl) (by simp), memoryKept_writeLink memoryKept_branchIf⟩
  case taken => simp [hc.2 hp, branchTo, sext16]
  case notTaken =>
    have hfalse : c = false := Bool.eq_false_iff.2 fun h => hp (hc.1 h)
    simp [hfalse]

end

/-! ## A branch in a delay slot (R312) -/

/-- A pending branch puts the word the step reaches in its delay slot. -/
theorem inDelaySlot_of_reaches {s u : State} {w : Word} (h : Reaches s w u) : u.inDelaySlot = s.branchPending := by
  obtain ⟨-, -, -, -, v, hfetch, rfl⟩ := h
  rw [advance_inDelaySlot, (fetch_state hfetch).1]
  simp

/-! ## The obligations -/

/-- Settles O14: each jump takes its branch to the target its rule names; jal and jalr then write the link. -/
theorem jumpResults : Obligations.JumpResults := by
  intro s target rd rs x y z there
  obtain ⟨-, hdec, -⟩ := shouldBeZeroFieldsIgnored
  obtain ⟨hjr, hjalr, -⟩ := hdec rd rs x y z
  exact ⟨⟨by simp [decodeWord_jFormat, instructionOf], jumpsTo_of_exec rfl⟩,
    ⟨by simp [decodeWord_jFormat, instructionOf], jumpsTo_of_exec rfl⟩,
    ⟨hjr, jumpsTo_of_exec rfl⟩, ⟨hjalr, jumpsTo_of_exec rfl⟩⟩

/-- Settles O15: each branch goes on the truth of its rule's condition. -/
theorem branchResults : Obligations.BranchResults := by
  intro s rs rt x imm w a
  refine ⟨⟨?_, branchesIf_of_exec rfl beq_iff_eq⟩, ⟨?_, branchesIf_of_exec rfl bne_iff_ne⟩,
    ⟨?_, branchesIf_of_exec rfl decide_eq_true_iff⟩, ⟨?_, branchesIf_of_exec rfl decide_eq_true_iff⟩,
    ⟨?_, branchesIf_of_exec rfl decide_eq_true_iff⟩, ⟨?_, branchesIf_of_exec rfl decide_eq_true_iff⟩⟩
  all_goals simp [w, decodeWord_iFormat, instructionOf, decodeRegimm, regimmOf]

/-- Settles O16: the condition is read in the state before the link is written. -/
theorem linkBranchResults : Obligations.LinkBranchResults := by
  intro s rs imm
  refine ⟨⟨?_, branchesIf_of_exec rfl decide_eq_true_iff⟩, ⟨?_, branchesIf_of_exec rfl decide_eq_true_iff⟩⟩
  all_goals simp [decodeWord_iFormat, instructionOf, decodeRegimm, regimmOf]

/-- Settles O54: the check of R312 comes before every other refusal, and the decoder's tables hold no other branch
or jump. -/
theorem branchInDelaySlotRefused : Obligations.BranchInDelaySlotRefused := by
  refine ⟨fun s u w hreach hpending hbranch => ?refused, fun w => ?words⟩
  case refused =>
    have hslot : u.inDelaySlot = true := (inDelaySlot_of_reaches hreach).trans hpending
    have hnop : w ≠ 0 := by
      rintro rfl
      exact absurd hbranch (by decide)
    have hrefusal : refusalBefore (decodeWord w) u = some .branchInDelaySlot := by
      simp [refusalBefore, hslot, hbranch]
    rw [step_of_reaches hreach, runWord, if_neg hnop, hrefusal]
  case words =>
    rw [decodeWord, instructionOf_isBranchOrJump, decodeSpecial, specialOf_isBranchOrJump, decodeRegimm,
      regimmOf_isBranchOrJump]

end Sys2Proof.Machine
end

section
/-! Loads and stores (43_loadstore.md R340-R358): an aligned access completes as `Loads` and `Stores` say, a misaligned
one takes its address error (R121), and lwl and lwr deliver the aligned word whole or merged (R350, R351). -/

namespace Sys2Proof.Machine

/-! ## Aligned accesses and address errors -/

section
variable {s t : State} {n : Width} {ea v : Word} {deliver : Word → State → State}

theorem misaligned_eq_false (ha : ea.toNat % n.bytes = 0) : misaligned n ea = false := by
  simp [misaligned, ha]

theorem misaligned_eq_true (ha : ea.toNat % n.bytes ≠ 0) : misaligned n ea = true := by
  simp [misaligned, ha]

theorem loadWith_aligned (ha : ea.toNat % n.bytes = 0) (hread : memRead ea n s = .ok (v, t)) :
    loadWith n ea deliver s = .next (deliver v t) := by
  simp [loadWith, misaligned_eq_false ha, hread]

theorem loadWith_misaligned (ha : ea.toNat % n.bytes ≠ 0) :
    loadWith n ea deliver s = .next (s.enter .adEL (some ea)) := by
  simp [loadWith, misaligned_eq_true ha, raise]

theorem storeWith_aligned (ha : ea.toNat % n.bytes = 0) (hwrite : memWrite ea n (v &&& n.mask) s = .ok t) :
    storeWith n ea v s = .next t := by
  simp [storeWith, misaligned_eq_false ha, hwrite]

theorem storeWith_misaligned (ha : ea.toNat % n.bytes ≠ 0) :
    storeWith n ea v s = .next (s.enter .adES (some ea)) := by
  simp [storeWith, misaligned_eq_true ha, raise]

end

/-! ## The two modes of lwl and lwr -/

section
variable {s t : State} {ea w : Word} {rt : Reg} {merge : Word → Word → Word → Word}

theorem loadUnaligned_approx (hmode : s.cfg.unalignedMode = .approx)
    (hread : memRead (alignedWord ea) .word s = .ok (w, t)) :
    loadUnaligned ea rt merge s = .next (t.setReg rt w) := by
  simp [loadUnaligned, hread, hmode]

theorem loadUnaligned_exact (hmode : s.cfg.unalignedMode = .exact)
    (hread : memRead (alignedWord ea) .word s = .ok (w, t)) :
    loadUnaligned ea rt merge s = .next (t.setReg rt (merge ea (s.getReg rt) w)) := by
  simp [loadUnaligned, hread, hmode]

end

/-! ## The shapes of a load and of a store -/

section
variable {i : Instr} {s : State} {n : Width} {ea v : Word} {rt : Reg} {ext : Word → Word}

/-- An instruction whose effect is one aligned read, delivered to rt, completes as `Loads` says. -/
theorem loads_of_memRead (hm : s.cfg.mapOk) (ha : ea.toNat % n.bytes = 0)
    (h : ∀ w u, memRead ea n s = .ok (w, u) → exec i s = .next (u.setReg rt (ext w))) : Loads i n ea rt ext s := by
  obtain ⟨w, u, hread, hgives⟩ := memRead_gives hm ha
  exact ⟨w, _, h w u hread, readGives_setReg hgives, getReg_setReg_self ..,
    frame_setReg (frame_memRead hread rfl rfl) _ (by simp), memoryKept_setReg (memRead_memoryKept hread)⟩

theorem loads_of_loadReg (h : exec i s = loadReg n ext rt ea s) (hm : s.cfg.mapOk) (ha : ea.toNat % n.bytes = 0) :
    Loads i n ea rt ext s :=
  loads_of_memRead hm ha fun _ _ hread => h.trans (loadWith_aligned ha hread)

theorem traps_of_loadWith {deliver : Word → State → State} (h : exec i s = loadWith n ea deliver s)
    (ha : ea.toNat % n.bytes ≠ 0) : Traps i s .adEL (some ea) :=
  ⟨_, h.trans (loadWith_misaligned ha), entered_enter ..⟩

theorem stores_of_storeWith (h : exec i s = storeWith n ea v s) (hm : s.cfg.mapOk) (hw : s.memoriesWf)
    (ha : ea.toNat % n.bytes = 0) : Stores i n ea v s := by
  obtain ⟨t, hwrite, hdoes⟩ := memWrite_does v hm hw ha
  exact ⟨t, h.trans (storeWith_aligned ha hwrite), hdoes, frame_memWrite hwrite rfl rfl⟩

theorem traps_of_storeWith (h : exec i s = storeWith n ea v s) (ha : ea.toNat % n.bytes ≠ 0) :
    Traps i s .adES (some ea) :=
  ⟨_, h.trans (storeWith_misaligned ha), entered_enter ..⟩

end

section
variable {i : Instr} {s : State} {ea : Word} {rt : Reg} {merge : Word → Word → Word → Word}

theorem loads_of_loadUnaligned_approx (h : exec i s = loadUnaligned ea rt merge s) (hm : s.cfg.mapOk)
    (hmode : s.cfg.unalignedMode = .approx) : Loads i .word (alignedWord ea) rt id s :=
  loads_of_memRead hm (alignedWord_aligned ea) fun _ _ hread => h.trans (loadUnaligned_approx hmode hread)

/-- In exact mode rt gets the merge, whose bytes `ext` names. -/
theorem loads_of_loadUnaligned_exact {ext : Word → Word} (h : exec i s = loadUnaligned ea rt merge s)
    (hm : s.cfg.mapOk) (hmode : s.cfg.unalignedMode = .exact) (hext : ∀ w, merge ea (s.getReg rt) w = ext w) :
    Loads i .word (alignedWord ea) rt ext s :=
  loads_of_memRead hm (alignedWord_aligned ea) fun w _ hread => by
    rw [h, loadUnaligned_exact hmode hread, hext w]

end

/-! ## The obligations -/

/-- Settles O18: each load is one aligned read with its extension, or the address error of its width; a byte access is
never misaligned. -/
theorem alignedLoads : Obligations.AlignedLoads := by
  intro s rt rs imm hm w ea
  refine ⟨⟨?_, loads_of_loadReg rfl hm (Nat.mod_one _)⟩, ⟨?_, loads_of_loadReg rfl hm (Nat.mod_one _)⟩,
    ⟨?_, loads_of_loadReg (n := .half) rfl hm, traps_of_loadWith (n := .half) rfl⟩,
    ⟨?_, loads_of_loadReg (n := .half) rfl hm, traps_of_loadWith (n := .half) rfl⟩,
    ⟨?_, loads_of_loadReg (n := .word) rfl hm, traps_of_loadWith (n := .word) rfl⟩⟩
  all_goals simp [w, decodeWord_iFormat, instructionOf]

/-- Settles O19: each store is one aligned write of the bits of its width, or the address error of its width. -/
theorem alignedStores : Obligations.AlignedStores := by
  intro s rt rs imm hm hw w ea
  refine ⟨⟨?_, stores_of_storeWith rfl hm hw (Nat.mod_one _)⟩,
    ⟨?_, stores_of_storeWith (n := .half) rfl hm hw, traps_of_storeWith (n := .half) rfl⟩,
    ⟨?_, stores_of_storeWith (n := .word) rfl hm hw, traps_of_storeWith (n := .word) rfl⟩⟩
  all_goals simp [w, decodeWord_iFormat, instructionOf]

/-- Settles O21: the aligned word is read in either mode; in exact mode the merges are the table of R351 byte by
byte. -/
theorem unalignedLoads : Obligations.UnalignedLoads := by
  intro s rt rs imm hm w ea a k r
  refine ⟨?_, ?_, fun happrox => ⟨?_, ?_⟩, fun hexact => ⟨?_, ?_⟩⟩
  · simp [w, decodeWord_iFormat, instructionOf]
  · simp [w, decodeWord_iFormat, instructionOf]
  · exact loads_of_loadUnaligned_approx rfl hm happrox
  · exact loads_of_loadUnaligned_approx rfl hm happrox
  · exact loads_of_loadUnaligned_exact rfl hm hexact (mergeLwl_bytes ea r)
  · exact loads_of_loadUnaligned_exact rfl hm hexact (mergeLwr_bytes ea r)

end Sys2Proof.Machine
end

section
/-! syscall, break, COP0 and the words the block does not implement (44_system.md R380-R396): what each leaves, the bits
rfe pops, and which words decode to an instruction that only records a diagnostic. -/

namespace Sys2Proof

/-! ## The words that are an unsupported COP0 operation (R392) -/

section
variable (w : Word)

theorem cop0MoveOf_eq_unsupported_iff (r : BitVec 5) :
    cop0MoveOf r w = .cop0Unsupported (cofunField w) ↔ r ∉ ([0x00, 0x02, 0x04, 0x06] : List (BitVec 5)) := by
  unfold cop0MoveOf
  split
  case h_5 => exact iff_of_true rfl (by simp_all)
  all_goals exact iff_of_false nofun (by decide)

theorem cop0OperationOf_eq_unsupported_iff (f : BitVec 6) :
    cop0OperationOf f w = .cop0Unsupported (cofunField w) ↔
      f ∉ ([0x01, 0x02, 0x06, 0x08, 0x10] : List (BitVec 6)) := by
  unfold cop0OperationOf
  split
  case h_6 => exact iff_of_true rfl (by simp_all)
  all_goals exact iff_of_false nofun (by decide)

/-- The co bit says which of the two tables names the word. -/
theorem decodeCop0_eq_unsupported_iff :
    decodeCop0 w = .cop0Unsupported (cofunField w) ↔
      (coField w = false ∧ rsField w ∉ ([0x00, 0x02, 0x04, 0x06] : List (BitVec 5))) ∨
      (coField w = true ∧ functField w ∉ ([0x01, 0x02, 0x06, 0x08, 0x10] : List (BitVec 6))) := by
  cases hco : coField w with
  | false => simp [decodeCop0, hco, cop0MoveOf_eq_unsupported_iff]
  | true => simp [decodeCop0, hco, cop0OperationOf_eq_unsupported_iff]

end

/-! ## The words the block does not implement (R393-R395)

Whether a row is implemented does not depend on the operands it takes from the word, so each table is asked at the
word 0, where its selector ranges over finitely many values. -/

section
variable (w : Word)

theorem specialOf_isUnimplemented_word (f : BitVec 6) :
    (specialOf f w).isUnimplemented = (specialOf f 0).isUnimplemented := by
  unfold specialOf
  split <;> rfl

theorem regimmOf_isUnimplemented_word (b : BitVec 5) :
    (regimmOf b w).isUnimplemented = (regimmOf b 0).isUnimplemented := by
  unfold regimmOf
  split <;> rfl

theorem specialOf_isUnimplemented_iff (f : BitVec 6) :
    (specialOf f w).isUnimplemented = true ↔
      f ∈ ([0x01, 0x05, 0x0A, 0x0B, 0x0E, 0x0F, 0x14, 0x15, 0x16, 0x17] ++
        [0x1C, 0x1D, 0x1E, 0x1F, 0x28, 0x29, 0x2C, 0x2D, 0x2E, 0x2F, 0x30, 0x31, 0x32, 0x33, 0x34, 0x35] ++
        [0x36, 0x37, 0x38, 0x39, 0x3A, 0x3B, 0x3C, 0x3D, 0x3E, 0x3F] : List (BitVec 6)) := by
  rw [specialOf_isUnimplemented_word]
  revert f
  decide

theorem regimmOf_isUnimplemented_iff (b : BitVec 5) :
    (regimmOf b w).isUnimplemented = true ↔ b ∉ ([0x00, 0x01, 0x10, 0x11] : List (BitVec 5)) := by
  rw [regimmOf_isUnimplemented_word]
  revert b
  decide

theorem decodeCop0_isUnimplemented : (decodeCop0 w).isUnimplemented = false := by
  unfold decodeCop0 cop0OperationOf cop0MoveOf
  split <;> split <;> rfl

theorem gteCommandOf_isUnimplemented (cmd : BitVec 6) : (gteCommandOf cmd w).isUnimplemented = false := by
  unfold gteCommandOf
  split <;> rfl

theorem decodeCop2_isUnimplemented : (decodeCop2 w).isUnimplemented = false := by
  unfold decodeCop2 cop2Of
  split
  case h_5 => exact gteCommandOf_isUnimplemented ..
  all_goals rfl

/-- Only opcodes 0 and 1 have tables of which some rows are implemented and some are not. -/
theorem instructionOf_isUnimplemented_word {op : BitVec 6} (h0 : op ≠ 0x00) (h1 : op ≠ 0x01) :
    (instructionOf op w).isUnimplemented = (instructionOf op 0).isUnimplemented := by
  unfold instructionOf
  split
  case h_1 => exact absurd rfl h0
  case h_2 => exact absurd rfl h1
  case h_3 => rw [decodeCop0_isUnimplemented, decodeCop0_isUnimplemented]
  case h_4 => rw [decodeCop2_isUnimplemented, decodeCop2_isUnimplemented]
  all_goals rfl

/-- Opcodes 0 and 1 ask their own tables. -/
theorem instructionOf_isUnimplemented_iff (op : BitVec 6) :
    (instructionOf op w).isUnimplemented = true ↔
      op ∈ ([0x11, 0x13, 0x14, 0x15, 0x16, 0x17, 0x18, 0x19, 0x1A, 0x1B, 0x1C, 0x1D, 0x1E, 0x1F] ++
        [0x27, 0x2C, 0x2D, 0x2F, 0x30, 0x31, 0x33, 0x34, 0x35, 0x36, 0x37, 0x38, 0x39, 0x3B, 0x3C, 0x3D] ++
        [0x3E, 0x3F] : List (BitVec 6)) ∨
      (op = 0x00 ∧ (decodeSpecial w).isUnimplemented = true) ∨
      (op = 0x01 ∧ (decodeRegimm w).isUnimplemented = true) := by
  by_cases h0 : op = 0x00
  · subst h0
    simp [instructionOf]
  by_cases h1 : op = 0x01
  · subst h1
    simp [instructionOf]
  rw [or_iff_left (not_or.mpr ⟨fun h => h0 h.1, fun h => h1 h.1⟩), instructionOf_isUnimplemented_word w h0 h1]
  revert op
  decide

end

end Sys2Proof

namespace Sys2Proof.Machine

/-! ## Instructions that only record a diagnostic -/

section
variable {i : Instr} {s : State} {d : Diagnostic}

theorem onlyRecords_of_exec (h : exec i s = .next (s.record d)) : OnlyRecords i s d := by
  refine ⟨_, h, record_diag s d, by simp [Frame], ?_⟩
  apply memoryKept_of <;> simp

/-- Every row that is not implemented has the same meaning; for the other rows the hypothesis is false = true. -/
theorem exec_of_isUnimplemented (h : i.isUnimplemented = true) : exec i s = logUnimplemented s := by
  cases i <;> cases h <;> rfl

end

/-! ## Writes of COP0 -/

section
variable {s : State} {f : Footprint} {n : Reg} {v : Word}

theorem frame_setCop0 (h : n ∈ f.cop0) : Frame f s (s.setCop0 n v) :=
  ⟨by simp, fun q hq => getCop0_setCop0_ne s v fun e => hq (e ▸ h), by simp⟩

theorem memoryKept_setCop0 : memoryKept s (s.setCop0 n v) := by
  apply memoryKept_of <;> simp

end

/-! ## The Status word rfe leaves (R387) -/

/-- The bits of Status that the pop keeps. -/
theorem getLsbD_popKeepMask : ∀ k < 32, (0xFFFFFFF0 : Word).getLsbD k = decide (4 ≤ k) := by decide

/-- The bits of Status that the pop replaces. -/
theorem getLsbD_popMask : ∀ k < 32, (0xF : Word).getLsbD k = decide (k < 4) := by decide

/-- The pop with both masks as word literals, the form the mask lemmas speak of. -/
theorem statusPop_eq (status : Word) :
    statusPop status = (status &&& (0xFFFFFFF0 : Word)) ||| ((status >>> 2) &&& (0xF : Word)) := rfl

theorem getLsbD_statusPop (status : Word) {k : Nat} (hk : k < 32) :
    (statusPop status).getLsbD k = if k < 4 then status.getLsbD (k + 2) else status.getLsbD k := by
  simp only [statusPop_eq, BitVec.getLsbD_or, BitVec.getLsbD_and, BitVec.getLsbD_ushiftRight, getLsbD_popKeepMask k hk,
    getLsbD_popMask k hk]
  by_cases h : k < 4
  · simp [h, Nat.add_comm]
  · simp [h, Nat.not_lt.mp h]

/-- Fields of two words are equal when their bits are. -/
theorem extractLsb'_eq_of_getLsbD {v w : Word} {a b n : Nat} (h : ∀ k < n, v.getLsbD (a + k) = w.getLsbD (b + k)) :
    v.extractLsb' a n = w.extractLsb' b n := by
  apply BitVec.eq_of_getLsbD_eq
  intro k hk
  simp [hk, h k hk]

section
variable (status : Word)

theorem extractLsb'_low_statusPop : (statusPop status).extractLsb' 0 4 = status.extractLsb' 2 4 :=
  extractLsb'_eq_of_getLsbD fun k hk => by
    rw [getLsbD_statusPop status (by omega), if_pos (by omega)]
    congr 1
    omega

/-- The pop keeps every field above bit 3. -/
theorem extractLsb'_high_statusPop {a n : Nat} (ha : 4 ≤ a) (hn : a + n ≤ 32) :
    (statusPop status).extractLsb' a n = status.extractLsb' a n :=
  extractLsb'_eq_of_getLsbD fun k hk => by
    rw [getLsbD_statusPop status (by omega), if_neg (by omega)]

/-- Two pops bring the old pair of bits 5:4 to bits 1:0. -/
theorem extractLsb'_statusPop_statusPop :
    (statusPop (statusPop status)).extractLsb' 0 2 = status.extractLsb' 4 2 :=
  extractLsb'_eq_of_getLsbD fun k hk => by
    rw [getLsbD_statusPop _ (by omega), if_pos (by omega), getLsbD_statusPop _ (by omega), if_pos (by omega)]
    congr 1
    omega

/-- A pop after a push restores the two pairs the push kept. -/
theorem extractLsb'_low_statusPop_statusPush :
    (statusPop (statusPush status)).extractLsb' 0 4 = status.extractLsb' 0 4 :=
  extractLsb'_eq_of_getLsbD fun k hk => by
    have hbelow : 0 + k + 2 < 6 := by omega
    rw [getLsbD_statusPop _ (by omega), if_pos (by omega), getLsbD_statusPush _ (by omega), if_pos hbelow]
    simp

/-- The oldest pair after a push is the one that was previous. -/
theorem extractLsb'_old_statusPush : (statusPush status).extractLsb' 4 2 = status.extractLsb' 2 2 :=
  extractLsb'_eq_of_getLsbD fun k hk => by
    have hpair : 4 + k < 6 ∧ ¬4 + k < 2 ∧ 4 + k - 2 = 2 + k := by omega
    rw [getLsbD_statusPush _ (by omega)]
    simp [hpair]

end

/-! ## The obligations -/

/-- Settles O28: each is the entry with its code. -/
theorem syscallAndBreak : Obligations.SyscallAndBreak := by
  intro s code
  obtain ⟨-, -, -, -, -, -, hdec⟩ := shouldBeZeroFieldsIgnored
  obtain ⟨hsyscall, hbreak, -⟩ := hdec code code s
  exact ⟨⟨hsyscall, _, rfl, entered_enter s .sys none⟩, ⟨hbreak, _, rfl, entered_enter s .bp none⟩⟩

/-- Settles O29: rfe is the pop of Status, after any entry the pop of the pushed word. -/
theorem returnFromException : Obligations.ReturnFromException := by
  intro s
  have hpop (t : State) : t.leave.getCop0 12 = statusPop (t.getCop0 12) := leave_status t
  have hpush (code : ExcCode) (a : Option Word) : (s.enter code a).getCop0 12 = statusPush (s.getCop0 12) :=
    enter_status s code a
  refine ⟨by decide, ⟨s.leave, rfl, ?_, ?_, frame_setCop0 (by simp), memoryKept_setCop0, s.leave.leave, rfl, ?_⟩,
    fun code a => ⟨(s.enter code a).leave, rfl, ?_, ?_, ?_⟩⟩
  · rw [hpop, extractLsb'_low_statusPop]
  · rw [hpop, extractLsb'_high_statusPop _ (by decide) (by decide)]
  · rw [hpop, hpop, extractLsb'_statusPop_statusPop]
  · rw [hpop, hpush, extractLsb'_low_statusPop_statusPush]
  · rw [hpop, hpush, extractLsb'_high_statusPop _ (by decide) (by decide), extractLsb'_old_statusPush]
  · rw [hpop, hpush, extractLsb'_high_statusPop _ (by decide) (by decide), extractLsb'_high_statusPush]

/-- Settles O30: mfc0 is one register write, mtc0 one write of COP0. -/
theorem cop0Moves : Obligations.Cop0Moves := by
  intro s rt rd x y
  obtain ⟨-, -, -, -, hdec, -⟩ := shouldBeZeroFieldsIgnored
  obtain ⟨hmfc0, -, hmtc0, -⟩ := hdec rt rd x y
  exact ⟨⟨hmfc0, writesReg_setReg rfl⟩,
    ⟨hmtc0, s.setCop0 rd (s.getReg rt), rfl, getCop0_setCop0_self .., frame_setCop0 (by simp), memoryKept_setCop0⟩⟩

/-- Settles O31: each row is one record, and the catch-all is what neither COP0 table has a row for. -/
theorem cop0OperationsLogged : Obligations.Cop0OperationsLogged := by
  refine ⟨fun s rt rd cofun => ?records, fun cofun => ?words⟩
  case records =>
    refine ⟨?_, ?_, ?_, ?_, ?_, ?_, ?_⟩
    all_goals exact onlyRecords_of_exec rfl
  case words =>
    have hdec : decodeWord (jFormat 0x10 cofun) = decodeCop0 (jFormat 0x10 cofun) := decodeWord_jFormat ..
    have hiff := decodeCop0_eq_unsupported_iff (jFormat 0x10 cofun)
    rw [cofunField_jFormat, coField_jFormat, rsField_jFormat, functField_jFormat] at hiff
    rw [hdec, hiff]

/-- Settles O32: the rows that are not implemented only log, and they are those of the three tables. -/
theorem unimplementedWordsLogged : Obligations.UnimplementedWordsLogged := by
  refine ⟨fun s i h => onlyRecords_of_exec (exec_of_isUnimplemented h), fun w => ?words⟩
  case words =>
    rw [decodeWord, instructionOf_isUnimplemented_iff, decodeSpecial, specialOf_isUnimplemented_iff, decodeRegimm,
      regimmOf_isUnimplemented_iff]

end Sys2Proof.Machine
end

section
/-! The GTE register bank as the moves see it (45_gte_regs.md R424-R433): what each register reads as and what a write
of it stores, class by class, and the numbers that are no plain word: the leading-bit count, the packed colour and
FLAG. -/

namespace Sys2Proof.Machine

/-! ## The low half of a word -/

section
variable (v : Word)

theorem keepSigned16_eq_signExtend : keepSigned16 v = (v.setWidth 16).signExtend 32 := by
  rw [keepSigned16, BitVec.setWidth_eq_extractLsb' (by decide)]

theorem keepUnsigned16_eq_setWidth : keepUnsigned16 v = (v.setWidth 16).setWidth 32 := by
  rw [keepUnsigned16, ← BitVec.setWidth_eq_extractLsb' (by decide)]

theorem s16_eq_toInt_setWidth : s16 v = (v.setWidth 16).toInt := by
  rw [s16, BitVec.setWidth_eq_extractLsb' (by decide)]

end

/-! ## The classes of registers (R424, R425)

`signedD`, `unsignedD` and `signedC` of the invariants name the 16-bit registers; a move needs two classes more. -/

/-- The data registers that move as whole words in field mode. -/
def wholeD : List Reg := [0, 2, 4, 6, 12, 13, 14, 20, 21, 22, 23, 24, 25, 26, 27, 30]

/-- The control registers that read back as a sign-extended half in field mode: `signedC` and H. -/
def halfC : List Reg := [4, 12, 20, 26, 27, 29, 30]

section
variable (g : Gte) {n : Reg}

theorem readFieldD_of_mem_signedD : n ∈ signedD → g.readFieldD n = keepSigned16 (g.getD n) := by
  revert n
  simp [signedD, Gte.readFieldD]

theorem readFieldD_of_mem_unsignedD : n ∈ unsignedD → g.readFieldD n = keepUnsigned16 (g.getD n) := by
  revert n
  simp [unsignedD, Gte.readFieldD]

theorem readFieldD_of_mem_wholeD : n ∈ wholeD → g.readFieldD n = g.getD n := by
  revert n
  simp [wholeD, Gte.readFieldD]

theorem readFieldD_sxyp : g.readFieldD 15 = g.getD 14 := rfl

theorem readFieldD_colour : n = 28 ∨ n = 29 → g.readFieldD n = g.irAsColour := by
  rintro (rfl | rfl) <;> rfl

theorem readFieldD_lzcr : g.readFieldD 31 = leadingCount (g.getD 30) := rfl

theorem readFieldC_of_mem_halfC : n ∈ halfC → g.readFieldC n = keepSigned16 (g.getC n) := by
  revert n
  simp [halfC, Gte.readFieldC]

theorem readFieldC_of_notMem_halfC (h : n ∉ halfC) : g.readFieldC n = g.getC n := by
  unfold Gte.readFieldC
  split
  case h_8 => rfl
  all_goals exact absurd (by simp [halfC, Fin.ext_iff, *]) h

end

/-- The three IR registers from the components of a packed colour, what a write of IRGB stores (R425, R432). -/
def Gte.setIrsFromColour (g : Gte) (v : Word) : Gte :=
  ((g.setD 9 (irOfColour5 v 0)).setD 10 (irOfColour5 v 5)).setD 11 (irOfColour5 v 10)

section
variable (g : Gte) (v : Word) {n : Reg}

theorem setIrsFromColour_getD (q : Reg) :
    (g.setIrsFromColour v).getD q =
      if q = 11 then irOfColour5 v 10 else if q = 10 then irOfColour5 v 5 else if q = 9 then irOfColour5 v 0
      else g.getD q := by
  simp [Gte.setIrsFromColour, getD_setD]

theorem writeFieldD_of_mem_signedD : n ∈ signedD → g.writeFieldD n v = g.setD n (keepSigned16 v) := by
  revert n
  simp [signedD, Gte.writeFieldD]

theorem writeFieldD_of_mem_unsignedD : n ∈ unsignedD → g.writeFieldD n v = g.setD n (keepUnsigned16 v) := by
  revert n
  simp [unsignedD, Gte.writeFieldD]

theorem writeFieldD_of_mem_wholeD : n ∈ wholeD → g.writeFieldD n v = g.setD n v := by
  revert n
  simp [wholeD, Gte.writeFieldD]

theorem writeFieldD_sxyp : g.writeFieldD 15 v = g.pushSxy v := rfl

theorem writeFieldD_irgb : g.writeFieldD 28 v = g.setIrsFromColour v := rfl

theorem writeFieldD_readOnly : n = 29 ∨ n = 31 → g.writeFieldD n v = g := by
  rintro (rfl | rfl) <;> rfl

theorem writeFieldC_of_mem_signedC : n ∈ signedC → g.writeFieldC n v = g.setC n (keepSigned16 v) := by
  revert n
  simp [signedC, Gte.writeFieldC]

theorem writeFieldC_h : g.writeFieldC 26 v = g.setC 26 (keepUnsigned16 v) := rfl

theorem writeFieldC_flag : g.writeFieldC 31 v = g.setC 31 (flagWritten v) := rfl

theorem writeFieldC_of_notMem (h : n ∉ halfC ++ [31]) : g.writeFieldC n v = g.setC n v := by
  unfold Gte.writeFieldC
  split
  case h_9 => rfl
  all_goals exact absurd (by simp [halfC, Fin.ext_iff, *]) h

end

/-! ## What a move's write leaves of the bank -/

section
variable (g : Gte) (mode : GteMoveMode) (n : Reg) (v : Word)

theorem pushSxy_getD_of_notMem {q : Reg} (hq : q ∉ ([12, 13, 14] : List Reg)) :
    (g.pushSxy v).getD q = g.getD q := by
  simp only [List.mem_cons, List.not_mem_nil, or_false, not_or] at hq
  simp [pushSxy_getD, hq]

theorem setIrsFromColour_getD_of_notMem {q : Reg} (hq : q ∉ ([9, 10, 11] : List Reg)) :
    (g.setIrsFromColour v).getD q = g.getD q := by
  simp only [List.mem_cons, List.not_mem_nil, or_false, not_or] at hq
  simp [setIrsFromColour_getD, hq]

/-- In either mode a write of a data register stores one word, pushes the SXY FIFO, sets IR1-IR3, or does nothing. -/
theorem writeD_cases :
    (∃ w, g.writeD mode n v = g.setD n w) ∨ g.writeD mode n v = g.pushSxy v ∨
      g.writeD mode n v = g.setIrsFromColour v ∨ g.writeD mode n v = g := by
  cases mode with
  | raw => exact .inl ⟨v, rfl⟩
  | field =>
    unfold Gte.writeD Gte.writeFieldD
    dsimp only
    split
    case h_13 => exact .inr (.inl rfl)
    case h_14 => exact .inr (.inr (.inl rfl))
    case h_15 | h_16 => exact .inr (.inr (.inr rfl))
    all_goals exact .inl ⟨_, rfl⟩

theorem writeD_getC (q : Reg) : (g.writeD mode n v).getC q = g.getC q := by
  obtain ⟨w, h⟩ | h | h | h := writeD_cases g mode n v <;> rw [h] <;> rfl

/-- A write of a data register changes that register, IR1-IR3 or the SXY FIFO. -/
theorem writeD_getD_of_notMem {q : Reg} (hq : q ∉ ([9, 10, 11, 12, 13, 14, n] : List Reg)) :
    (g.writeD mode n v).getD q = g.getD q := by
  have hsxy : q ∉ ([12, 13, 14] : List Reg) := fun h => hq (List.subset_def.mp (by simp) h)
  have hirs : q ∉ ([9, 10, 11] : List Reg) := fun h => hq (List.subset_def.mp (by simp) h)
  have hne : q ≠ n := fun h => hq (by simp [h])
  obtain ⟨w, h⟩ | h | h | h := writeD_cases g mode n v
  · rw [h, getD_setD_ne _ _ hne]
  · rw [h, pushSxy_getD_of_notMem _ _ hsxy]
  · rw [h, setIrsFromColour_getD_of_notMem _ _ hirs]
  · rw [h]

end

/-! ## The leading-bit count (R433) -/

section
variable (b : Bool) (v : Word)

theorem leadingRun_le (n : Nat) : leadingRun b v n ≤ n := by
  induction n with
  | zero => exact Nat.le_refl 0
  | succ n ih =>
    unfold leadingRun
    split <;> omega

/-- Within the run every bit, counted downwards from bit `n - 1`, is `b`. -/
theorem getLsbD_of_lt_leadingRun {n k : Nat} (hk : k < leadingRun b v n) : v.getLsbD (n - 1 - k) = b := by
  induction n generalizing k with
  | zero => exact absurd hk (Nat.not_lt_zero k)
  | succ n ih =>
    unfold leadingRun at hk
    split at hk
    case isTrue hbit =>
      cases k with
      | zero => exact hbit
      | succ k =>
        rw [← ih (Nat.lt_of_succ_lt_succ hk)]
        congr 1
        omega
    case isFalse => exact absurd hk (Nat.not_lt_zero k)

/-- The bit below the run is not `b`. -/
theorem getLsbD_leadingRun_ne {n : Nat} (h : leadingRun b v n < n) : v.getLsbD (n - 1 - leadingRun b v n) ≠ b := by
  induction n with
  | zero => exact absurd h (Nat.not_lt_zero _)
  | succ n ih =>
    unfold leadingRun at h ⊢
    split at h
    case isTrue hbit =>
      rw [if_pos hbit]
      have hshift : n + 1 - 1 - (leadingRun b v n + 1) = n - 1 - leadingRun b v n := by omega
      rw [hshift]
      exact ih (Nat.lt_of_succ_lt_succ h)
    case isFalse hbit =>
      rw [if_neg hbit]
      exact hbit

theorem toNat_leadingCount : (leadingCount v).toNat = leadingRun (v.getLsbD 31) v 32 := by
  have hle := leadingRun_le (v.getLsbD 31) v 32
  rw [leadingCount, BitVec.toNat_ofNat]
  omega

/-- Bit 31 equals itself, so its run is not empty. -/
theorem one_le_leadingRun_top : 1 ≤ leadingRun (v.getLsbD 31) v 32 := by
  simp [leadingRun]

/-- The count is how many bits from bit 31 downwards equal bit 31. -/
theorem leadingCount_spec :
    1 ≤ (leadingCount v).toNat ∧ (leadingCount v).toNat ≤ 32 ∧
    (∀ k, k < (leadingCount v).toNat → v.getLsbD (31 - k) = v.getLsbD 31) ∧
    ((leadingCount v).toNat < 32 → v.getLsbD (31 - (leadingCount v).toNat) ≠ v.getLsbD 31) := by
  rw [toNat_leadingCount]
  exact ⟨one_le_leadingRun_top v, leadingRun_le .., fun _ hk => getLsbD_of_lt_leadingRun _ _ hk,
    fun hbelow => getLsbD_leadingRun_ne _ v hbelow⟩

end

/-! ## The packed colour (R424, R425, R432) -/

theorem toNat_colour5 (v : Int) : ((colour5 v).toNat : Int) = clamp (v >>> 7) 0 31 := by
  obtain ⟨hlow, hhigh⟩ := clamp_range (show (0 : Int) ≤ 31 by decide) (v >>> 7)
  rw [colour5, BitVec.toNat_ofInt]
  omega

/-- A component occupies five bits. -/
theorem colour5_eq_setWidth (v : Int) : colour5 v = ((colour5 v).setWidth 5).setWidth 32 := by
  have hval := toNat_colour5 v
  obtain ⟨-, hhigh⟩ := clamp_range (show (0 : Int) ≤ 31 by decide) (v >>> 7)
  apply BitVec.eq_of_toNat_eq
  simp only [BitVec.toNat_setWidth]
  omega

theorem toNat_setWidth_colour5 (v : Int) : (((colour5 v).setWidth 5).toNat : Int) = clamp (v >>> 7) 0 31 := by
  have hval := toNat_colour5 v
  obtain ⟨-, hhigh⟩ := clamp_range (show (0 : Int) ≤ 31 by decide) (v >>> 7)
  rw [← hval, BitVec.toNat_setWidth]
  omega

/-- Three five-bit components side by side, as one concatenation. -/
theorem or_shiftLeft_eq_append (a b c : BitVec 5) :
    (a.setWidth 32 ||| (b.setWidth 32 <<< 5) ||| (c.setWidth 32 <<< 10) : Word) =
      (0#17 : BitVec 17) ++ c ++ b ++ a := by
  apply BitVec.eq_of_getLsbD_eq
  intro i hi
  simp only [BitVec.getLsbD_or, BitVec.getLsbD_setWidth, BitVec.getLsbD_shiftLeft, BitVec.getLsbD_append, hi]
  by_cases hfirst : i < 5
  · have h : i < 10 := by omega
    simp [hfirst, h]
  have ha : a.getLsbD i = false := BitVec.getLsbD_of_ge a i (by omega)
  have hfive : i - 5 < 32 := by omega
  by_cases hsecond : i < 10
  · have h : i - 5 < 5 := by omega
    simp [hfirst, hsecond, ha, hfive, h]
  have hb : b.getLsbD (i - 5) = false := BitVec.getLsbD_of_ge b (i - 5) (by omega)
  have hten : i - 10 < 32 ∧ ¬i - 5 < 5 := by omega
  by_cases hthird : i - 10 < 5
  · simp [hfirst, hsecond, ha, hb, hten, hthird, Nat.sub_sub]
  · have hc : c.getLsbD (i - 10) = false := BitVec.getLsbD_of_ge c (i - 10) (by omega)
    simp [hfirst, ha, hb, hc, hten, hthird, Nat.sub_sub]

theorem irAsColour_eq_append (g : Gte) :
    g.irAsColour = (0#17 : BitVec 17) ++ (colour5 (s16 (g.getD 11))).setWidth 5 ++
      (colour5 (s16 (g.getD 10))).setWidth 5 ++ (colour5 (s16 (g.getD 9))).setWidth 5 := by
  rw [← or_shiftLeft_eq_append, ← colour5_eq_setWidth, ← colour5_eq_setWidth, ← colour5_eq_setWidth, Gte.irAsColour]

section
variable (a b c : BitVec 5)

theorem extractLsb'_append_first : ((0#17 : BitVec 17) ++ c ++ b ++ a).extractLsb' 0 5 = a := by
  rw [extract_append_low _ _ _ _ (by decide), extract_whole]

theorem extractLsb'_append_second : ((0#17 : BitVec 17) ++ c ++ b ++ a).extractLsb' 5 5 = b := by
  rw [extract_append_high _ _ _ _ (by decide), extract_append_low _ _ _ _ (by decide), extract_whole]

theorem extractLsb'_append_third : ((0#17 : BitVec 17) ++ c ++ b ++ a).extractLsb' 10 5 = c := by
  rw [extract_append_high _ _ _ _ (by decide), extract_append_high _ _ _ _ (by decide),
    extract_append_low _ _ _ _ (by decide), extract_whole]

theorem extractLsb'_append_high : ((0#17 : BitVec 17) ++ c ++ b ++ a).extractLsb' 15 17 = 0 := by
  rw [extract_append_high _ _ _ _ (by decide), extract_append_high _ _ _ _ (by decide),
    extract_append_high _ _ _ _ (by decide), extract_whole]
  rfl

end

/-- The components of the packed colour are the clamped IR registers, and no other bit is set. -/
theorem irAsColour_fields (g : Gte) :
    ((g.irAsColour.extractLsb' 0 5).toNat : Int) = clamp (((g.getD 9).setWidth 16).toInt >>> 7) 0 31 ∧
    ((g.irAsColour.extractLsb' 5 5).toNat : Int) = clamp (((g.getD 10).setWidth 16).toInt >>> 7) 0 31 ∧
    ((g.irAsColour.extractLsb' 10 5).toNat : Int) = clamp (((g.getD 11).setWidth 16).toInt >>> 7) 0 31 ∧
    g.irAsColour.extractLsb' 15 17 = 0 := by
  rw [irAsColour_eq_append, extractLsb'_append_first, extractLsb'_append_second, extractLsb'_append_third]
  simp only [toNat_setWidth_colour5, s16_eq_toInt_setWidth]
  exact ⟨trivial, trivial, trivial, extractLsb'_append_high ..⟩

theorem toNat_irOfColour5 (v : Word) (lo : Nat) : (irOfColour5 v lo).toNat = v.toNat / 2 ^ lo % 32 * 128 := by
  have hfive : v.toNat / 2 ^ lo % 32 < 32 := Nat.mod_lt _ (by decide)
  simp only [irOfColour5, BitVec.toNat_shiftLeft, BitVec.toNat_setWidth, BitVec.extractLsb'_toNat,
    Nat.shiftRight_eq_div_pow, Nat.shiftLeft_eq]
  omega

/-! ## FLAG as a move writes it (R427) -/

section
variable (v : Word)

/-- Bits 30:12 are the written bits. -/
theorem extractLsb'_flagWritten : (flagWritten v).extractLsb' 12 19 = v.extractLsb' 12 19 := by
  have hmask : (0x7FFFF000 : Word).extractLsb' 12 19 = BitVec.allOnes 19 := by decide
  have hbit (b : Bool) : (flagBit 31 b).extractLsb' 12 19 = 0#19 := by cases b <;> decide
  rw [flagWritten, BitVec.extractLsb'_or, BitVec.extractLsb'_and, hmask, hbit, BitVec.and_allOnes, BitVec.or_zero]

theorem setWidth_flagWritten : (flagWritten v).setWidth 12 = 0 := by
  have hmask : (0x7FFFF000 : Word).setWidth 12 = 0 := by decide
  have hbit (b : Bool) : (flagBit 31 b).setWidth 12 = 0 := by cases b <;> decide
  rw [flagWritten, BitVec.setWidth_or, BitVec.setWidth_and, hmask, hbit]
  simp

/-- The error bits lie in 30:12, so they are the written ones. -/
theorem flagWritten_and_flagErrorMask : flagWritten v &&& flagErrorMask = v &&& flagErrorMask := by
  have hmask : (0x7FFFF000 : Word) &&& flagErrorMask = flagErrorMask := by decide
  have hbit (b : Bool) : flagBit 31 b &&& flagErrorMask = 0#32 := by cases b <;> decide
  rw [flagWritten, BitVec.and_or_distrib_right, BitVec.and_assoc, hmask, hbit, BitVec.or_zero]

theorem flagWf_flagWritten : flagWf (flagWritten v) := by
  refine ⟨setWidth_flagWritten v, ?_⟩
  show _ = decide (flagWritten v &&& flagErrorMask ≠ 0)
  rw [flagWritten_and_flagErrorMask, flagWritten, BitVec.getLsbD_or, BitVec.getLsbD_and, flagBit_getLsbD]
  simp

end

end Sys2Proof.Machine
end

section
/-! The COP2 moves, lwc2 and swc2 (45_gte_regs.md R435-R440), and the commands that do not run (R442): each is one
access of the bank through its move functions, or one diagnostic. -/

namespace Sys2Proof.Machine

/-! ## Frames of a write of the bank -/

section
variable {f : Footprint} {s t : State} {n : Reg} {v : Word}

theorem frame_refl (f : Footprint) (s : State) : Frame f s s := by
  simp [Frame]

/-- Writing data registers the footprint names keeps the frame. -/
theorem frame_gteWriteD (h : Frame f s t)
    (hkept : ∀ q, q ∉ f.gteD → (t.gteWriteD n v).gte.getD q = t.gte.getD q) :
    Frame f s (t.gteWriteD n v) := by
  obtain ⟨hregs, hcop0, hhi, hlo, hgteD, hgteC, hrest⟩ := h
  exact ⟨hregs, hcop0, hhi, hlo, fun q hq => (hkept q hq).trans (hgteD q hq),
    fun q hq => (writeD_getC ..).trans (hgteC q hq), hrest⟩

theorem memoryKept_gteWriteD (h : memoryKept s t) : memoryKept s (t.gteWriteD n v) := h

theorem readGives_gteWriteD {k : Width} {ea w : Word} (h : ReadGives k ea s w t) :
    ReadGives k ea s w (t.gteWriteD n v) := h

/-- Writing a control register the footprint names, whatever word is stored, keeps the frame. -/
theorem frame_gteWriteC {w : Word} (hw : s.gte.writeC s.cfg.gteMoveMode n v = s.gte.setC n w) (hn : n ∈ f.gteC) :
    Frame f s (s.gteWriteC n v) := by
  have hgte : (s.gteWriteC n v).gte = s.gte.setC n w := hw
  refine ⟨by simp, by simp, by simp, by simp, fun q _ => ?_, fun q hq => ?_, by simp⟩
  · rw [hgte, getD_setC]
  · have hne : q ≠ n := fun e => hq (e ▸ hn)
    rw [hgte, getC_setC_ne _ _ hne]

end

/-! ## The commands -/

theorem gteCommand_unimplemented {c : GteCmd} {s : State} (h : c ∉ s.cfg.gteImplemented) (body : Gte → Gte) :
    gteCommand c body s = .next (s.record (.gteUnknown s.word s.curPC)) := by
  simp [gteCommand, h]

/-- A command instruction is its command, run on the bank by some body. -/
theorem exec_of_gteCmd {i : Instr} {c : GteCmd} (h : i.gteCmd = some c) :
    ∃ body, ∀ s, exec i s = gteCommand c body s := by
  cases i with
  | gteRtps | gteNclip | gteOp | gteDpcs | gteIntpl | gteMvmva | gteNcds | gteCdp | gteNcdt | gteNccs | gteCc
  | gteNcs | gteNct | gteSqr | gteDcpl | gteDpct | gteAvsz3 | gteAvsz4 | gteRtpt | gteGpf | gteGpl | gteNcct =>
    cases h
    exact ⟨_, fun _ => rfl⟩
  | _ => cases h

/-! ## The obligations -/

/-- Settles O42: each answers the state with one diagnostic recorded. -/
theorem gteUnknownLogged : Obligations.GteUnknownLogged := by
  refine fun s i => ⟨fun cmd => onlyRecords_of_exec rfl, fun c hcmd hnot => ?_⟩
  obtain ⟨body, hexec⟩ := exec_of_gteCmd hcmd
  exact onlyRecords_of_exec ((hexec s).trans (gteCommand_unimplemented hnot body))

/-- Settles O20: lwc2 is one aligned read delivered to the bank, swc2 one aligned write of what the bank reads as. -/
theorem gteLoadAndStore : Obligations.GteLoadAndStore := by
  intro s rt rs imm hm hw ea
  refine ⟨?_, fun ha => ?_, traps_of_loadWith (n := .word) rfl, ?_, stores_of_storeWith (n := .word) rfl hm hw,
    traps_of_storeWith (n := .word) rfl⟩
  · simp [decodeWord_iFormat, instructionOf]
  · obtain ⟨v, u, hread, hgives⟩ := memRead_gives (n := .word) hm ha
    have hgte : (u.gteWriteD rt v).gte = s.gte.writeD s.cfg.gteMoveMode rt v := by
      rw [(memRead_state hread).1]
      rfl
    exact ⟨v, _, loadWith_aligned (n := .word) ha hread, readGives_gteWriteD hgives, hgte,
      frame_gteWriteD (frame_memRead hread rfl rfl) fun _ => writeD_getD_of_notMem _ _ _ _,
      memoryKept_gteWriteD (memRead_memoryKept hread)⟩
  · simp [decodeWord_iFormat, instructionOf]

/-- Settles O37: each move is one register write of what the bank reads as, which is known class by class. -/
theorem gteMoveReads : Obligations.GteMoveReads := by
  intro s rt rd x y D C ir
  obtain ⟨-, -, -, -, hdec, -⟩ := shouldBeZeroFieldsIgnored
  obtain ⟨-, -, -, -, hmfc2, hcfc2, -⟩ := hdec rt rd x y
  have hdata : WritesReg (.mfc2 rt rd) s rt (s.gte.readD s.cfg.gteMoveMode rd) := writesReg_setReg rfl
  have hcontrol : WritesReg (.cfc2 rt rd) s rt (s.gte.readC s.cfg.gteMoveMode rd) := writesReg_setReg rfl
  refine ⟨hmfc2, hcfc2, fun hraw => ?_, fun hfield => ?_⟩
  · rw [hraw] at hdata hcontrol
    exact ⟨hdata, hcontrol⟩
  · rw [hfield] at hdata hcontrol
    refine ⟨⟨_, hdata, ?signed, ?unsigned, ?sxyp, ?colour, ?lzcr, readFieldD_of_mem_wholeD _⟩,
      _, hcontrol, ?half, readFieldC_of_notMem_halfC _⟩
    case signed =>
      rw [← keepSigned16_eq_signExtend]
      exact readFieldD_of_mem_signedD _
    case unsigned =>
      rw [← keepUnsigned16_eq_setWidth]
      exact readFieldD_of_mem_unsignedD _
    case sxyp =>
      rintro rfl
      exact readFieldD_sxyp _
    case colour =>
      intro hcolour
      rw [Gte.readD, readFieldD_colour _ hcolour]
      exact irAsColour_fields _
    case lzcr =>
      rintro rfl
      exact leadingCount_spec _
    case half =>
      rw [← keepSigned16_eq_signExtend]
      exact readFieldC_of_mem_halfC _

/-- Settles O38: each move is one write of the bank, which is known class by class. -/
theorem gteMoveWrites : Obligations.GteMoveWrites := by
  intro s rt rd x y D v data control
  obtain ⟨-, -, -, -, hdec, -⟩ := shouldBeZeroFieldsIgnored
  obtain ⟨-, -, -, -, -, -, hmtc2, hctc2⟩ := hdec rt rd x y
  have hdata {wr : List Reg} {P : Gte → Prop} {g : Gte} (hg : s.gte.writeD s.cfg.gteMoveMode rd v = g) (hP : P g)
      (hkept : ∀ q, q ∉ wr → g.getD q = D q) : data wr P := by
    subst hg
    exact ⟨_, rfl, hP, frame_gteWriteD (frame_refl _ s) hkept, memoryKept_gteWriteD fun _ => rfl⟩
  have hcontrol {P : Gte → Prop} {w : Word} (hg : s.gte.writeC s.cfg.gteMoveMode rd v = s.gte.setC rd w)
      (hP : P (s.gte.setC rd w)) : control P := by
    rw [← hg] at hP
    exact ⟨_, rfl, hP, frame_gteWriteC hg (by simp), fun _ => rfl⟩
  clear_value data control
  have hstore {w : Word} (hg : s.gte.writeD s.cfg.gteMoveMode rd v = s.gte.setD rd w) :
      data [rd] (fun g => g.getD rd = w) :=
    hdata hg (getD_setD_self ..) fun q hq => getD_setD_ne _ _ fun e => hq (List.mem_singleton.mpr e)
  have hstoreC {w : Word} (hg : s.gte.writeC s.cfg.gteMoveMode rd v = s.gte.setC rd w) :
      control (fun g => g.getC rd = w) :=
    hcontrol hg (getC_setC_self ..)
  refine ⟨hmtc2, hctc2, fun hraw => ?_, fun hfield => ?_⟩
  · rw [hraw] at hstore hstoreC
    exact ⟨hstore rfl, hstoreC rfl⟩
  · rw [hfield] at hdata hstore hcontrol hstoreC
    refine ⟨?signed, ?unsigned, ?sxyp, ?irgb, ?readOnly, fun h => hstore (writeFieldD_of_mem_wholeD _ _ h),
      ?signedControl, ?projectionPlane, ?flag, fun h => hstoreC (writeFieldC_of_notMem _ _ h)⟩
    case signed =>
      rw [← keepSigned16_eq_signExtend]
      exact fun h => hstore (writeFieldD_of_mem_signedD _ _ h)
    case unsigned =>
      rw [← keepUnsigned16_eq_setWidth]
      exact fun h => hstore (writeFieldD_of_mem_unsignedD _ _ h)
    case sxyp =>
      rintro rfl
      exact hdata (writeFieldD_sxyp ..) (by simp [pushSxy_getD, D]) fun _ => pushSxy_getD_of_notMem _ _
    case irgb =>
      rintro rfl
      exact hdata (writeFieldD_irgb ..) (by simp [setIrsFromColour_getD, toNat_irOfColour5])
        fun _ => setIrsFromColour_getD_of_notMem _ _
    case readOnly => exact fun h => hdata (writeFieldD_readOnly _ _ h) trivial fun _ _ => rfl
    case signedControl =>
      rw [← keepSigned16_eq_signExtend]
      exact fun h => hstoreC (writeFieldC_of_mem_signedC _ _ h)
    case projectionPlane =>
      rintro rfl
      rw [← keepUnsigned16_eq_setWidth]
      exact hstoreC (writeFieldC_h ..)
    case flag =>
      rintro rfl
      refine hcontrol (writeFieldC_flag ..) ?_
      rw [getC_setC_self]
      exact ⟨extractLsb'_flagWritten v, flagWf_flagWritten v⟩

end Sys2Proof.Machine
end

section
/-! The saturation and check helpers of the GTE (46_gte_commands.md R478-R484), and FLAG as a command closes it (R428,
R477): which bits each sets, bit by bit. -/

namespace Sys2Proof.Machine

/-! ## Flag words of one and of two bits -/

section
variable {n m : Nat} {b c : Bool}

theorem flagBit_getLsbD_self (hn : n < 32) : (flagBit n b).getLsbD n = b := by
  rw [flagBit_getLsbD]
  simp [hn]

theorem flagBit_getLsbD_ne (h : m ≠ n) : (flagBit n b).getLsbD m = false := by
  rw [flagBit_getLsbD]
  simp [h]

/-- Two different bits: each holds its own condition, and no other bit is set. -/
theorem getLsbD_flagBit_or (hn : n < 32) (hm : m < 32) (hne : n ≠ m) :
    (flagBit n b ||| flagBit m c).getLsbD n = b ∧ (flagBit n b ||| flagBit m c).getLsbD m = c ∧
      ∀ k, k ≠ n → k ≠ m → (flagBit n b ||| flagBit m c).getLsbD k = false := by
  refine ⟨?_, ?_, fun k hkn hkm => ?_⟩
  · rw [BitVec.getLsbD_or, flagBit_getLsbD_self hn, flagBit_getLsbD_ne hne, Bool.or_false]
  · rw [BitVec.getLsbD_or, flagBit_getLsbD_self hm, flagBit_getLsbD_ne hne.symm, Bool.false_or]
  · rw [BitVec.getLsbD_or, flagBit_getLsbD_ne hkn, flagBit_getLsbD_ne hkm, Bool.or_false]

end

/-! ## The helpers -/

/-- A saturating helper: its value is clamped, and its bit, the only one it sets, says the value was outside. -/
theorem saturate_spec {n : Nat} (hn : n < 32) (lo hi v : Int) :
    (saturate n lo hi v).val = (if v < lo then lo else if hi < v then hi else v) ∧
      ((saturate n lo hi v).flag.getLsbD n = true ↔ v < lo ∨ hi < v) ∧
      ∀ k, k ∉ [n] → (saturate n lo hi v).flag.getLsbD k = false := by
  refine ⟨rfl, ?_, fun k hk => flagBit_getLsbD_ne (by simpa using hk)⟩
  rw [saturate, flagBit_getLsbD_self hn, decide_eq_true_iff]

/-- `F` (R479). -/
theorem checkF_spec (v : Int) :
    ((checkF v).flag.getLsbD 16 = true ↔ v > 2 ^ 31 - 1) ∧ ((checkF v).flag.getLsbD 15 = true ↔ v < -2 ^ 31) ∧
      ∀ k, k ∉ [15, 16] → (checkF v).flag.getLsbD k = false := by
  obtain ⟨hover, hunder, hrest⟩ := getLsbD_flagBit_or (n := 16) (m := 15) (b := decide (v > 2147483647))
    (c := decide (v < -2147483648)) (by decide) (by decide) (by decide)
  refine ⟨?_, ?_, fun k hk => ?_⟩
  · rw [checkF, hover, decide_eq_true_iff]
    norm_num
  · rw [checkF, hunder, decide_eq_true_iff]
    norm_num
  · simp only [List.mem_cons, List.not_mem_nil, or_false, not_or] at hk
    exact hrest k hk.2 hk.1

/-- `A_i` (R478): the bits of the three components lie apart, overflow in 30:28 and underflow in 27:25. -/
theorem checkA_spec (l : Lane) (v : Int) :
    ((checkA l v).flag.getLsbD (31 - l.index) = true ↔ v > 2 ^ 43 - 1) ∧
      ((checkA l v).flag.getLsbD (28 - l.index) = true ↔ v < -2 ^ 43) ∧
      ∀ k, k ∉ [31 - l.index, 28 - l.index] → (checkA l v).flag.getLsbD k = false := by
  have hindex : 1 ≤ l.index ∧ l.index ≤ 3 := by cases l <;> decide
  obtain ⟨hover, hunder, hrest⟩ := getLsbD_flagBit_or (n := 31 - l.index) (m := 28 - l.index)
    (b := decide (v > 8796093022207)) (c := decide (v < -8796093022208)) (by omega) (by omega) (by omega)
  refine ⟨?_, ?_, fun k hk => ?_⟩
  · rw [checkA, hover, decide_eq_true_iff]
    norm_num
  · rw [checkA, hunder, decide_eq_true_iff]
    norm_num
  · simp only [List.mem_cons, List.not_mem_nil, or_false, not_or] at hk
    exact hrest k hk.1 hk.2

/-- Wrapping changes a value by a multiple of 2^44 (R478). -/
theorem wrap44_sub_emod (v : Int) : (wrap44 v - v) % 2 ^ 44 = 0 := by
  unfold wrap44
  omega

/-! ## FLAG closed (R428, R477) -/

section
variable (w : Word)

/-- Closing FLAG rewrites bit 31 alone. -/
theorem getLsbD_closeFlag {n : Nat} (hn : n ≠ 31) : (closeFlag w).getLsbD n = w.getLsbD n := by
  have hmask : ∀ k < 32, (0x7FFFFFFF : Word).getLsbD k = decide (k ≠ 31) := by decide
  rw [closeFlag, BitVec.getLsbD_or, BitVec.getLsbD_and, flagBit_getLsbD_ne hn, Bool.or_false]
  by_cases h : n < 32
  · rw [hmask n h, decide_eq_true hn, Bool.and_true]
  · simp [BitVec.getLsbD_of_ge _ _ (Nat.le_of_not_lt h)]

/-- Bit 31 is no error bit, so closing keeps the error bits. -/
theorem closeFlag_and_flagErrorMask : closeFlag w &&& flagErrorMask = w &&& flagErrorMask := by
  have hmask : (0x7FFFFFFF : Word) &&& flagErrorMask = flagErrorMask := by decide
  have hbit (b : Bool) : flagBit 31 b &&& flagErrorMask = 0#32 := by cases b <;> decide
  rw [closeFlag, BitVec.and_or_distrib_right, BitVec.and_assoc, hmask, hbit, BitVec.or_zero]

theorem flagWf_closeFlag (h : w.setWidth 12 = 0) : flagWf (closeFlag w) := by
  constructor
  · have hbit (b : Bool) : (flagBit 31 b).setWidth 12 = 0 := by cases b <;> decide
    rw [closeFlag, BitVec.setWidth_or, BitVec.setWidth_and, h, hbit]
    simp
  · show _ = decide (closeFlag w &&& flagErrorMask ≠ 0)
    rw [closeFlag_and_flagErrorMask, closeFlag, BitVec.getLsbD_or, BitVec.getLsbD_and, flagBit_getLsbD_self (by decide)]
    simp

end

/-! ## The obligation -/

/-- Settles O39: A and F set the two bits of their spec lemmas; every other helper is one saturation. -/
theorem saturationHelpers : Obligations.SaturationHelpers := by
  intro v l lm
  have hindex : 1 ≤ l.index := by cases l <;> decide
  obtain ⟨hlow, hhigh⟩ := wrap44_range v
  exact ⟨⟨wrap44_sub_emod v, hlow, hhigh, checkA_spec l v⟩, ⟨rfl, checkF_spec v⟩,
    saturate_spec (by omega) _ _ v, saturate_spec (by omega) _ _ v, saturate_spec (by decide) _ _ v,
    saturate_spec (by decide) _ _ v, saturate_spec (by decide) _ _ v, saturate_spec (by decide) _ _ v⟩

end Sys2Proof.Machine
end

section
/-! NCLIP, AVSZ3 and AVSZ4 (46_gte_commands.md R501, R516, R517): one MAC0 check each, and for the averages OTZ. -/

namespace Sys2Proof.Machine

/-! ## Commands in their frame -/

/-- An implemented command completes with its body run in the frame. -/
theorem commands_of_exec {i : Instr} {c : GteCmd} {s : State} {body : Gte → Gte} {P : Gte → Prop}
    (hexec : exec i s = gteCommand c body s) (hc : c ∈ s.cfg.gteImplemented) (hP : P (s.gte.frame body)) :
    Commands i s P :=
  ⟨_, hexec.trans (gteCommand_implemented hc body), hP⟩

/-- Below bit 31, FLAG after a command is what the body set in a cleared FLAG (R477). -/
theorem getLsbD_frame_flag (g : Gte) (body : Gte → Gte) {n : Nat} (hn : n ≠ 31) :
    ((g.frame body).getC 31).getLsbD n = (body (g.setC 31 0)).flag.getLsbD n := by
  rw [frame_getC, if_pos rfl, getLsbD_closeFlag _ hn]

@[simp] theorem setD_flag (g : Gte) (n : Reg) (v : Word) : (g.setD n v).flag = g.flag := rfl

/-! ## OTZ -/

/-- `Lm_D`'s value as OTZ holds it (R482). -/
theorem toNat_trunc32_limD (v : Int) : ((trunc32 (limD v).val).toNat : Int) = clamp v 0 0xFFFF := by
  obtain ⟨hlow, hhigh⟩ := clamp_range (show (0 : Int) ≤ 0xFFFF by decide) v
  rw [trunc32, BitVec.toNat_ofInt]
  show (((clamp v 0 0xFFFF) % (2 ^ 32 : Nat)).toNat : Int) = _
  omega

@[simp] theorem checkF_val (v : Int) : (checkF v).val = v := rfl

/-- A shift by 12 floors by 4096. The count of a shift written `v >>> 12` is a natural number or, where Mathlib's
integer shift is known, an integer: both readings are given. -/
theorem shiftRight_natTwelve (v : Int) : v >>> (12 : Nat) = v / 4096 := shiftOf_shifted true v

theorem shiftRight_intTwelve (v : Int) : v >>> (12 : Int) = v / 4096 :=
  (Int.shiftRight_natCast_right v 12).trans (shiftRight_natTwelve v)

/-- What an average leaves from a cleared FLAG: MAC0, OTZ, and no bit but those of `F` and `Lm_D` (R516, R517). -/
theorem averageZ_spec {g : Gte} (hg : g.flag = 0) (scale sum : Int) :
    let t := g.averageZ scale sum
    let v := scale * sum
    t.getD 24 = BitVec.ofInt 32 v ∧ ((t.getD 7).toNat : Int) = clamp (v / 4096) 0 0xFFFF ∧
      t.flag = (checkF v).flag ||| (limD (v / 4096)).flag := by
  refine ⟨?_, ?_, ?_⟩
  · simp [Gte.averageZ, getD_setD, storeMac0_getD, trunc32]
  · rw [← toNat_trunc32_limD]
    simp [Gte.averageZ, shiftRight_natTwelve, shiftRight_intTwelve]
  · simp [Gte.averageZ, shiftRight_natTwelve, shiftRight_intTwelve, hg]

/-- The bits of an average's FLAG: those of `F` on the value, and bit 18 when OTZ saturated. -/
theorem averageFlag_spec (v : Int) :
    let f := (checkF v).flag ||| (limD (v / 4096)).flag
    (f.getLsbD 16 = true ↔ v > 2 ^ 31 - 1) ∧ (f.getLsbD 15 = true ↔ v < -2 ^ 31) ∧
      (f.getLsbD 18 = true ↔ v / 4096 < 0 ∨ 0xFFFF < v / 4096) ∧
      ∀ n, n ∉ ([15, 16, 18, 31] : List Nat) → f.getLsbD n = false := by
  obtain ⟨hover, hunder, hrestF⟩ := checkF_spec v
  obtain ⟨-, houtside, hrestD⟩ := saturate_spec (show 18 < 32 by decide) 0 65535 (v / 4096)
  refine ⟨?_, ?_, ?_, fun n hn => ?_⟩
  · rw [BitVec.getLsbD_or, limD, hrestD 16 (by decide), Bool.or_false, hover]
  · rw [BitVec.getLsbD_or, limD, hrestD 15 (by decide), Bool.or_false, hunder]
  · rw [BitVec.getLsbD_or, hrestF 18 (by decide), Bool.false_or]
    exact houtside
  · rw [BitVec.getLsbD_or, limD, hrestF n (by simp_all), hrestD n (by simp_all), Bool.or_false]

/-! ## The frames -/

/-- The FLAG bits of `F` on `v`, overflow and underflow of MAC0 (R479). -/
def mac0Flags (v : Int) (f : Word) : Prop :=
  (f.getLsbD 16 = true ↔ v > 2 ^ 31 - 1) ∧ (f.getLsbD 15 = true ↔ v < -2 ^ 31)

/-- What AVSZ3 and AVSZ4 leave for the product `v`. -/
def averageLeaves (v : Int) (t : Gte) : Prop :=
  t.getD 24 = BitVec.ofInt 32 v ∧ ((t.getD 7).toNat : Int) = clamp (v / 4096) 0 0xFFFF ∧ mac0Flags v (t.getC 31) ∧
    ((t.getC 31).getLsbD 18 = true ↔ (v / 4096 < 0 ∨ 0xFFFF < v / 4096)) ∧
    ∀ n, n ∉ ([15, 16, 18, 31] : List Nat) → (t.getC 31).getLsbD n = false

section
variable (g : Gte)

/-- `hbody` says which scale and sum the body reads; clearing FLAG changes neither. -/
theorem averageLeaves_frame {body : Gte → Gte} {scale sum : Int}
    (hbody : body (g.setC 31 0) = (g.setC 31 0).averageZ scale sum) :
    averageLeaves (scale * sum) (g.frame body) := by
  obtain ⟨hmac0, hotz, hflag⟩ := averageZ_spec (getC_setC_self g 31 0) scale sum
  obtain ⟨hover, hunder, houtside, hrest⟩ := averageFlag_spec (scale * sum)
  have hbit {n : Nat} (hn : n ≠ 31) : ((g.frame body).getC 31).getLsbD n =
      ((checkF (scale * sum)).flag ||| (limD (scale * sum / 4096)).flag).getLsbD n := by
    rw [getLsbD_frame_flag g body hn, hbody, hflag]
  refine ⟨?_, ?_, ⟨?_, ?_⟩, ?_, fun n hn => ?_⟩
  · rw [frame_getD, hbody, hmac0]
  · rw [frame_getD, hbody, hotz]
  · rw [hbit (by decide), hover]
  · rw [hbit (by decide), hunder]
  · rw [hbit (by decide), houtside]
  · rw [hbit (by rintro rfl; simp at hn), hrest n hn]

theorem gteAvsz3_clearedFlag :
    gteAvsz3 (g.setC 31 0) =
      (g.setC 31 0).averageZ (s16 (g.getC 29)) (u16 (g.getD 17) + u16 (g.getD 18) + u16 (g.getD 19)) := by
  simp [gteAvsz3, getC_setC]

theorem gteAvsz4_clearedFlag :
    gteAvsz4 (g.setC 31 0) = (g.setC 31 0).averageZ (s16 (g.getC 30))
      (u16 (g.getD 16) + u16 (g.getD 17) + u16 (g.getD 18) + u16 (g.getD 19)) := by
  simp [gteAvsz4, getC_setC]

theorem gteNclip_frame :
    (g.frame gteNclip).getD 24 = BitVec.ofInt 32 g.screenArea ∧
      mac0Flags g.screenArea ((g.frame gteNclip).getC 31) ∧
      ∀ n, n ∉ ([15, 16, 31] : List Nat) → ((g.frame gteNclip).getC 31).getLsbD n = false := by
  obtain ⟨hover, hunder, hrest⟩ := checkF_spec g.screenArea
  have hbody : gteNclip (g.setC 31 0) = (g.setC 31 0).storeMac0 (checkF g.screenArea) := rfl
  have hbit {n : Nat} (hn : n ≠ 31) :
      ((g.frame gteNclip).getC 31).getLsbD n = (checkF g.screenArea).flag.getLsbD n := by
    rw [getLsbD_frame_flag g gteNclip hn, hbody, storeMac0_flag, Gte.flag, getC_setC_self]
    simp
  refine ⟨?_, ⟨?_, ?_⟩, fun n hn => ?_⟩
  · rw [frame_getD, hbody, storeMac0_getD]
    rfl
  · rw [hbit (by decide), hover]
  · rw [hbit (by decide), hunder]
  · rw [hbit (by rintro rfl; simp at hn), hrest n (by simp_all)]

end

/-! ## The obligation -/

/-- Settles O43: NCLIP is one MAC0 check, AVSZ3 and AVSZ4 each one average; none reads sf or lm. -/
theorem clipAndAverageResults : Obligations.ClipAndAverageResults := by
  refine fun s sf lm => ⟨fun hc => ?nclip, fun hc => ?avsz3, fun hc => ?avsz4⟩
  case nclip => exact commands_of_exec rfl hc (gteNclip_frame s.gte)
  case avsz3 => exact commands_of_exec rfl hc (averageLeaves_frame s.gte (gteAvsz3_clearedFlag s.gte))
  case avsz4 => exact commands_of_exec rfl hc (averageLeaves_frame s.gte (gteAvsz4_clearedFlag s.gte))

end Sys2Proof.Machine
end

section
/-! What every GTE command keeps (46_gte_commands.md R522). `CommandWrites lm g t` says what may differ between the
banks `g` and `t`, register by register; it is closed under composition, each shared step has it, and so has every
command's body. -/

namespace Sys2Proof.Machine

/-! ## FLAG bits 11:0

No check sets one (R426). -/

section
variable {v w : Word}

theorem setWidth_or_eq_zero (hv : v.setWidth 12 = 0) (hw : w.setWidth 12 = 0) : (v ||| w).setWidth 12 = 0 := by
  rw [BitVec.setWidth_or, hv, hw]
  rfl

theorem setWidth_flagBit {n : Nat} (h : 12 ≤ n) (b : Bool) : (flagBit n b).setWidth 12 = 0 := by
  apply BitVec.eq_of_getLsbD_eq
  intro k hk
  rw [BitVec.getLsbD_setWidth, flagBit_getLsbD_ne (by omega), Bool.and_false]
  simp

end

/-- The check sets none of FLAG's bits 11:0. -/
def Checked.highFlag (c : Checked) : Prop := c.flag.setWidth 12 = 0

theorem highFlag_saturate {n : Nat} (h : 12 ≤ n) (lo hi v : Int) : (saturate n lo hi v).highFlag :=
  setWidth_flagBit h _

section
variable (i : Lane) (sf lm : Bool) (v : Int)

theorem highFlag_checkA : (checkA i v).highFlag :=
  have h : 12 ≤ 31 - i.index ∧ 12 ≤ 28 - i.index := by cases i <;> decide
  setWidth_or_eq_zero (setWidth_flagBit h.1 _) (setWidth_flagBit h.2 _)

theorem highFlag_checkF : (checkF v).highFlag :=
  setWidth_or_eq_zero (setWidth_flagBit (by decide) _) (setWidth_flagBit (by decide) _)

theorem highFlag_limB : (limB i lm v).highFlag := highFlag_saturate (by cases i <;> decide) ..
theorem highFlag_limC : (limC i v).highFlag := highFlag_saturate (by cases i <;> decide) ..
theorem highFlag_limD : (limD v).highFlag := highFlag_saturate (by decide) ..
theorem highFlag_limG1 : (limG1 v).highFlag := highFlag_saturate (by decide) ..
theorem highFlag_limG2 : (limG2 v).highFlag := highFlag_saturate (by decide) ..
theorem highFlag_limH : (limH v).highFlag := highFlag_saturate (by decide) ..
theorem highFlag_divide (h sz : Nat) : (divide h sz).highFlag := setWidth_flagBit (by decide) _

theorem highFlag_dotRow (t : Int) (m u : Vec) : (dotRow i t m u).highFlag :=
  setWidth_or_eq_zero (setWidth_or_eq_zero (highFlag_checkA ..) (highFlag_checkA ..)) (highFlag_checkA ..)

theorem highFlag_interpLane (fc ir0 : Int) {b : Checked} (hb : b.highFlag) : (interpLane i sf fc ir0 b).highFlag :=
  setWidth_or_eq_zero (setWidth_or_eq_zero (setWidth_or_eq_zero hb (highFlag_checkA ..)) (highFlag_limB ..))
    (highFlag_checkA ..)

theorem highFlag_mvmFarLane (fc : Int) (m u : Vec) : (mvmFarLane i sf fc m u).highFlag :=
  setWidth_or_eq_zero (setWidth_or_eq_zero (setWidth_or_eq_zero (highFlag_checkA ..) (highFlag_limB ..))
    (highFlag_checkA ..)) (highFlag_checkA ..)

end

theorem setWidth_flagsOf {t : Triple Checked} (h : ∀ l, (t.get l).highFlag) : (flagsOf t).setWidth 12 = 0 :=
  setWidth_or_eq_zero (setWidth_or_eq_zero (h .l1) (h .l2)) (h .l3)

theorem highFlag_eachLane {f : Lane → Checked} (h : ∀ l, (f l).highFlag) (l : Lane) :
    ((eachLane f).get l).highFlag := by
  rw [eachLane_get]
  exact h l

/-! ## The kinds of data registers -/

/-- What a data register is to a command. -/
inductive DataKind where
  /-- No command writes it. -/
  | kept (n : Reg)
  /-- The colour FIFO and MAC0-MAC3: any word. -/
  | word
  | otz
  | ir0
  | ir (l : Lane)
  | sxy
  | sz
  deriving DecidableEq

def dataKind : Reg → DataKind
  | 7 => .otz
  | 8 => .ir0
  | 9 => .ir .l1
  | 10 => .ir .l2
  | 11 => .ir .l3
  | 12 | 13 | 14 => .sxy
  | 16 | 17 | 18 | 19 => .sz
  | 20 | 21 | 22 | 24 | 25 | 26 | 27 => .word
  | n => .kept n

/-- The words a command with this lm puts into a register of the kind (R480, R482-R484). -/
def DataKind.allows (lm : Bool) : DataKind → Word → Prop
  | .kept _, _ => False
  | .word, _ => True
  | .otz, v | .sz, v => v.toNat ≤ 0xFFFF
  | .ir0, v => v.toNat ≤ 0x1000
  | .ir _, v => -0x8000 ≤ v.toInt ∧ v.toInt ≤ 0x7FFF ∧ (lm = true → 0 ≤ v.toInt)
  | .sxy, v => -0x400 ≤ s16 v ∧ s16 v ≤ 0x3FF ∧ -0x400 ≤ hi16s v ∧ hi16s v ≤ 0x3FF

/-- Register `n` may come to hold `v`: what a register of its kind held in `g`, or a word its kind allows. -/
def MayHold (lm : Bool) (g : Gte) (n : Reg) (v : Word) : Prop :=
  (∃ m, dataKind m = dataKind n ∧ v = g.getD m) ∨ (dataKind n).allows lm v

theorem dataKind_ir (l : Lane) : dataKind l.ir = .ir l := by cases l <;> rfl

theorem eq_of_dataKind_kept {n : Reg} (hn : n ∉ commandD) : ∀ m, dataKind m = dataKind n → m = n := by
  revert n
  decide

theorem dataKind_of_notMem {n : Reg} (hn : n ∉ commandD) : dataKind n = .kept n := by
  revert n
  decide

/-! ## What a command may change -/

/-- From `g` to `t` nothing changed but what a command with this lm may change (R522). -/
structure CommandWrites (lm : Bool) (g t : Gte) : Prop where
  data : ∀ n, MayHold lm g n (t.getD n)
  control : ∀ n, n ≠ 31 → t.getC n = g.getC n
  flag : g.flag.setWidth 12 = 0 → t.flag.setWidth 12 = 0

section
variable {lm : Bool} {g t u : Gte}

theorem mayHold_getD {n m : Reg} (h : dataKind m = dataKind n) : MayHold lm g n (g.getD m) := .inl ⟨m, h, rfl⟩

theorem CommandWrites.refl (g : Gte) : CommandWrites lm g g := ⟨fun _ => mayHold_getD rfl, fun _ _ => rfl, id⟩

theorem CommandWrites.trans (h : CommandWrites lm g t) (h' : CommandWrites lm t u) : CommandWrites lm g u where
  data n := by
    obtain ⟨m, hkind, hu⟩ | hallows := h'.data n
    · obtain ⟨k, hkind', ht⟩ | hallows := h.data m
      · exact .inl ⟨k, hkind'.trans hkind, hu.trans ht⟩
      · exact .inr (hkind ▸ hu ▸ hallows)
    · exact .inr hallows
  control n hn := (h'.control n hn).trans (h.control n hn)
  flag := h'.flag ∘ h.flag

theorem CommandWrites.setD (h : CommandWrites lm g t) {n : Reg} {v : Word} (hv : MayHold lm g n v) :
    CommandWrites lm g (t.setD n v) where
  data q := by
    rw [getD_setD]
    split
    case isTrue hq => exact hq ▸ hv
    case isFalse => exact h.data q
  control := h.control
  flag := h.flag

theorem CommandWrites.orFlag (h : CommandWrites lm g t) {w : Word} (hw : w.setWidth 12 = 0) :
    CommandWrites lm g (t.orFlag w) where
  data := h.data
  control n hn := (orFlag_getC_ne t w hn).trans (h.control n hn)
  flag hg := by
    rw [orFlag_flag]
    exact setWidth_or_eq_zero (h.flag hg) hw

end

/-! ## Words the kinds allow -/

section
variable (x y : Int)

theorem getLsbD_packSxy {k : Nat} (hk : k < 32) :
    (packSxy x y).getLsbD k = if k < 16 then (trunc32 x).getLsbD k else (trunc32 y).getLsbD (k - 16) := by
  have hmask : ∀ k < 32, (0xFFFF : Word).getLsbD k = decide (k < 16) := by decide
  rw [packSxy, BitVec.getLsbD_or, BitVec.getLsbD_shiftLeft, BitVec.getLsbD_and, BitVec.getLsbD_and, hmask k hk,
    hmask (k - 16) (by omega)]
  by_cases h : k < 16
  · simp [h]
  · simp [h, hk]
    omega

theorem s16_packSxy_eq_lowHalf : s16 (packSxy x y) = lowHalf (trunc32 x) := by
  refine congrArg BitVec.toInt (BitVec.eq_of_getLsbD_eq fun k hk => ?_)
  rw [BitVec.getLsbD_extractLsb', BitVec.getLsbD_setWidth, getLsbD_packSxy _ _ (by omega), if_pos (by omega),
    Nat.zero_add]

theorem hi16s_packSxy_eq_lowHalf : hi16s (packSxy x y) = lowHalf (trunc32 y) := by
  refine congrArg BitVec.toInt (BitVec.eq_of_getLsbD_eq fun k hk => ?_)
  rw [BitVec.getLsbD_extractLsb', BitVec.getLsbD_setWidth, getLsbD_packSxy _ _ (by omega), if_neg (by omega),
    Nat.add_sub_cancel_left]

end

section
variable {lm : Bool} {g : Gte}

theorem mayHold_word {n : Reg} (h : dataKind n = .word) (v : Word) : MayHold lm g n v := by
  refine .inr ?_
  rw [h]
  trivial

theorem mayHold_trunc32_ir (l : Lane) {v : Int} (hlow : irLow lm ≤ v) (hhigh : v ≤ 32767) :
    MayHold lm g l.ir (trunc32 v) := by
  have hir : -0x8000 ≤ v ∧ (lm = true → 0 ≤ v) := by
    cases lm with
    | false => exact ⟨hlow, nofun⟩
    | true => exact ⟨le_trans (by decide) hlow, fun _ => hlow⟩
  refine .inr ?_
  rw [dataKind_ir]
  show -0x8000 ≤ (trunc32 v).toInt ∧ (trunc32 v).toInt ≤ 0x7FFF ∧ (lm = true → 0 ≤ (trunc32 v).toInt)
  rw [trunc32, toInt_ofInt_small hir.1 (by omega)]
  exact ⟨hir.1, hhigh, hir.2⟩

theorem toNat_trunc32_limD_le (v : Int) : (trunc32 (limD v).val).toNat ≤ 0xFFFF := by
  have hval := toNat_trunc32_limD v
  obtain ⟨-, hhigh⟩ := clamp_range (show (0 : Int) ≤ 0xFFFF by decide) v
  omega

theorem mayHold_sz (v : Int) : MayHold lm g 19 (trunc32 (limD v).val) := .inr (toNat_trunc32_limD_le v)

theorem mayHold_otz (v : Int) : MayHold lm g 7 (trunc32 (limD v).val) := .inr (toNat_trunc32_limD_le v)

theorem mayHold_ir0 (v : Int) : MayHold lm g 8 (trunc32 (limH v).val) := by
  obtain ⟨hlow, hhigh⟩ := clamp_range (show (0 : Int) ≤ 4096 by decide) v
  refine .inr ?_
  show (BitVec.ofInt 32 (clamp v 0 4096)).toNat ≤ 0x1000
  rw [BitVec.toNat_ofInt]
  omega

theorem mayHold_sxy (x y : Int) : MayHold lm g 14 (packSxy (limG1 x).val (limG2 y).val) := by
  obtain ⟨hxlow, hxhigh⟩ := clamp_range (show (-1024 : Int) ≤ 1023 by decide) x
  obtain ⟨hylow, hyhigh⟩ := clamp_range (show (-1024 : Int) ≤ 1023 by decide) y
  have hx : s16 (packSxy (limG1 x).val (limG2 y).val) = clamp x (-1024) 1023 :=
    (s16_packSxy_eq_lowHalf _ _).trans (lowHalf_ofInt (x := clamp x (-1024) 1023) (by omega) (by omega))
  have hy : hi16s (packSxy (limG1 x).val (limG2 y).val) = clamp y (-1024) 1023 :=
    (hi16s_packSxy_eq_lowHalf _ _).trans (lowHalf_ofInt (x := clamp y (-1024) 1023) (by omega) (by omega))
  refine .inr ?_
  show -0x400 ≤ s16 _ ∧ s16 _ ≤ 0x3FF ∧ -0x400 ≤ hi16s _ ∧ hi16s _ ≤ 0x3FF
  rw [hx, hy]
  exact ⟨hxlow, hxhigh, hylow, hyhigh⟩

end

end Sys2Proof.Machine
end

section
/-! Every shared step of the GTE and every command's body writes only what R522 allows. -/

namespace Sys2Proof.Machine

/-! ## Writing results -/

section
variable {lm : Bool} (g : Gte) (sf : Bool)

theorem commandWrites_storeMacs {t : Triple Checked} (h : ∀ l, (t.get l).highFlag) :
    CommandWrites lm g (g.storeMacs sf t) :=
  (((CommandWrites.refl g).setD (mayHold_word rfl _)).setD (mayHold_word rfl _)).setD (mayHold_word rfl _)
    |>.orFlag (setWidth_flagsOf h)

theorem commandWrites_storeIrs {t : Triple Checked} (h : ∀ l, (t.get l).highFlag)
    (hrange : ∀ l, irLow lm ≤ (t.get l).val ∧ (t.get l).val ≤ 32767) : CommandWrites lm g (g.storeIrs t) :=
  have hir (l : Lane) : MayHold lm g l.ir (trunc32 (t.get l).val) := mayHold_trunc32_ir l (hrange l).1 (hrange l).2
  (((CommandWrites.refl g).setD (hir .l1)).setD (hir .l2)).setD (hir .l3) |>.orFlag (setWidth_flagsOf h)

theorem commandWrites_storeMac0 {v : Checked} (h : v.highFlag) : CommandWrites lm g (g.storeMac0 v) :=
  ((CommandWrites.refl g).setD (mayHold_word rfl _)).orFlag h

/-! ## The FIFOs -/

theorem commandWrites_pushRgb (v : Word) : CommandWrites lm g (g.pushRgb v) :=
  (((CommandWrites.refl g).setD (mayHold_word rfl _)).setD (mayHold_word rfl _)).setD (mayHold_word rfl _)

theorem commandWrites_pushSxy {v : Word} (hv : MayHold lm g 14 v) : CommandWrites lm g (g.pushSxy v) :=
  (((CommandWrites.refl g).setD (mayHold_getD (by rfl))).setD (mayHold_getD (by rfl))).setD hv

theorem commandWrites_pushSz {v : Word} (hv : MayHold lm g 19 v) : CommandWrites lm g (g.pushSz v) :=
  ((((CommandWrites.refl g).setD (mayHold_getD (by rfl))).setD (mayHold_getD (by rfl))).setD
    (mayHold_getD (by rfl))).setD hv

end

/-! ## Shared steps (R487-R491) -/

section
variable (lm : Bool) (g : Gte) (sf : Bool)

theorem commandWrites_mulMV (m : Matrix) (v t : Vec) : CommandWrites lm g (g.mulMV sf m v t) :=
  commandWrites_storeMacs g sf (highFlag_eachLane fun _ => highFlag_dotRow ..)

theorem commandWrites_macToIr : CommandWrites lm g (g.macToIr lm) := by
  refine commandWrites_storeIrs g (highFlag_eachLane fun _ => highFlag_limB ..) fun l => ?_
  rw [eachLane_get]
  exact limB_range ..

theorem commandWrites_interp {b : Triple Checked} (hb : ∀ l, (b.get l).highFlag) :
    CommandWrites lm g (g.interp sf b) :=
  commandWrites_storeMacs g sf (highFlag_eachLane fun l => highFlag_interpLane _ _ _ _ (hb l))

theorem commandWrites_colourPush : CommandWrites lm g g.colourPush :=
  (commandWrites_pushRgb g _).orFlag (setWidth_flagsOf (highFlag_eachLane fun _ => highFlag_limC ..))

/-- The end most commands share: `MacToIr()` after a step. -/
theorem CommandWrites.macToIr {g t : Gte} (h : CommandWrites lm g t) : CommandWrites lm g (t.macToIr lm) :=
  h.trans (commandWrites_macToIr lm t)

/-- The end of the colour commands: `MacToIr(); ColourPush()`. -/
theorem CommandWrites.macToIr_colourPush {g t : Gte} (h : CommandWrites lm g t) :
    CommandWrites lm g (t.macToIr lm).colourPush :=
  (h.macToIr lm).trans (commandWrites_colourPush lm _)

theorem commandWrites_irLight : CommandWrites lm g (g.irLight sf lm) := (commandWrites_mulMV lm g sf _ _ _).macToIr lm

theorem commandWrites_lightStep (k : Lane) : CommandWrites lm g (g.lightStep sf lm k) :=
  ((commandWrites_mulMV lm g sf _ _ _).macToIr lm).trans (commandWrites_irLight lm _ sf)

theorem commandWrites_colourOnly : CommandWrites lm g (g.colourOnly sf lm) :=
  (commandWrites_storeMacs g sf (highFlag_eachLane fun _ => highFlag_checkA ..)).macToIr_colourPush lm

theorem commandWrites_colourDepth : CommandWrites lm g (g.colourDepth sf lm) :=
  (commandWrites_interp lm g sf (highFlag_eachLane fun _ => highFlag_checkA ..)).macToIr_colourPush lm

theorem commandWrites_depthCue (colour : Word) : CommandWrites lm g (g.depthCue sf lm colour) :=
  (commandWrites_interp lm g sf (highFlag_eachLane fun _ => highFlag_checkA ..)).macToIr_colourPush lm

theorem commandWrites_depthCueFifo : CommandWrites lm g (g.depthCueFifo sf lm) := commandWrites_depthCue lm g sf _

theorem commandWrites_averageZ (scale sum : Int) : CommandWrites lm g (g.averageZ scale sum) :=
  ((commandWrites_storeMac0 g (highFlag_checkF _)).setD (mayHold_otz _)).orFlag (highFlag_limD _)

/-! ## Perspective transformation (R500) -/

/-- IR3 is clamped from MAC3, its flag is the one of z; IR1 and IR2 are `Lm_B` as elsewhere. -/
theorem commandWrites_rtpTransform (k : Lane) : CommandWrites lm g (g.rtpTransform sf lm k) := by
  refine (commandWrites_storeMacs g sf (highFlag_eachLane fun _ => highFlag_dotRow ..)).trans
    (commandWrites_storeIrs _ ?flags ?ranges)
  case flags =>
    intro l
    cases l with
    | l1 | l2 => exact highFlag_limB ..
    | l3 => exact setWidth_flagBit (by decide) _
  case ranges =>
    intro l
    cases l with
    | l1 | l2 => exact limB_range ..
    | l3 => exact limB_range .l3 lm _

theorem commandWrites_rtpProject (n : Int) (last : Bool) : CommandWrites lm g (g.rtpProject n last) := by
  have hpoint : CommandWrites lm g (g.rtpProject n false) := (commandWrites_pushSxy g (mayHold_sxy _ _)).orFlag
    (setWidth_or_eq_zero (setWidth_or_eq_zero (setWidth_or_eq_zero (highFlag_checkF _) (highFlag_checkF _))
      (highFlag_limG1 _)) (highFlag_limG2 _))
  cases last with
  | false => exact hpoint
  | true =>
    exact ((hpoint.trans (commandWrites_storeMac0 _ (highFlag_checkF _))).setD (mayHold_ir0 _)).orFlag (highFlag_limH _)

theorem commandWrites_rtp (k : Lane) (last : Bool) : CommandWrites lm g (g.rtp sf lm k last) :=
  (((commandWrites_rtpTransform lm g sf k).trans (commandWrites_pushSz _ (mayHold_sz _))).orFlag
    (highFlag_limD _)).orFlag (highFlag_divide ..) |>.trans (commandWrites_rtpProject lm _ _ _)

/-! ## The bodies of more than one step -/

theorem commandWrites_eachVertex {b : Gte → Lane → Gte} (h : ∀ g k, CommandWrites lm g (b g k)) :
    CommandWrites lm g (g.eachVertex b) :=
  ((h g .l1).trans (h _ .l2)).trans (h _ .l3)

theorem commandWrites_normalDepth (k : Lane) : CommandWrites lm g (g.normalDepth sf lm k) :=
  (commandWrites_lightStep lm g sf k).trans (commandWrites_colourDepth lm _ sf)

theorem commandWrites_normalColour (k : Lane) : CommandWrites lm g (g.normalColour sf lm k) :=
  (commandWrites_lightStep lm g sf k).trans (commandWrites_colourOnly lm _ sf)

theorem commandWrites_normalLight (k : Lane) : CommandWrites lm g (g.normalLight sf lm k) :=
  (commandWrites_lightStep lm g sf k).trans (commandWrites_colourPush lm _)

/-- OP's three checks. -/
theorem highFlag_outer (l : Lane) : (g.outer.get l).highFlag := by
  cases l with
  | l1 | l2 | l3 => exact highFlag_checkA ..

/-- MVMVA's sums, the far colour's with the bits of what is lost. -/
theorem highFlag_mvmSums (m : Matrix) (v : Vec) (cv : MvmTranslation) (l : Lane) :
    ((mvmSums sf m v cv g).get l).highFlag := by
  cases cv with
  | fc => exact highFlag_eachLane (fun _ => highFlag_mvmFarLane ..) l
  | tr | bk | zero => exact highFlag_eachLane (fun _ => highFlag_dotRow ..) l

end

/-! ## Every command -/

/-- A command instruction runs its command with a body that writes only what a command of its lm may. -/
theorem exec_of_gteCmd_commandWrites {i : Instr} {c : GteCmd} (h : i.gteCmd = some c) :
    ∃ body, (∀ s, exec i s = gteCommand c body s) ∧ ∀ g, CommandWrites i.lm g (body g) := by
  cases i with
  | gteRtps sf lm => cases h; exact ⟨_, fun _ => rfl, fun g => commandWrites_rtp lm g sf .l1 true⟩
  | gteRtpt sf lm =>
    cases h
    exact ⟨_, fun _ => rfl, fun g => ((commandWrites_rtp lm g sf .l1 false).trans
      (commandWrites_rtp lm _ sf .l2 false)).trans (commandWrites_rtp lm _ sf .l3 true)⟩
  | gteNclip => cases h; exact ⟨_, fun _ => rfl, fun g => commandWrites_storeMac0 g (highFlag_checkF _)⟩
  | gteOp sf lm =>
    cases h
    exact ⟨_, fun _ => rfl, fun g => (commandWrites_storeMacs g sf (highFlag_outer g)).macToIr lm⟩
  | gteSqr sf lm =>
    cases h
    exact ⟨_, fun _ => rfl, fun g =>
      (commandWrites_storeMacs g sf (highFlag_eachLane fun _ => highFlag_checkA ..)).macToIr lm⟩
  | gteMvmva sf mx v cv lm =>
    cases h
    exact ⟨_, fun _ => rfl, fun g => (commandWrites_storeMacs g sf (highFlag_mvmSums g sf _ _ cv)).macToIr lm⟩
  | gteDpcs sf lm => cases h; exact ⟨_, fun _ => rfl, fun g => commandWrites_depthCue lm g sf _⟩
  | gteDpct sf lm =>
    cases h
    exact ⟨_, fun _ => rfl, fun g => ((commandWrites_depthCueFifo lm g sf).trans
      (commandWrites_depthCueFifo lm _ sf)).trans (commandWrites_depthCueFifo lm _ sf)⟩
  | gteIntpl sf lm =>
    cases h
    exact ⟨_, fun _ => rfl, fun g =>
      (commandWrites_interp lm g sf (highFlag_eachLane fun _ => highFlag_checkA ..)).macToIr_colourPush lm⟩
  | gteDcpl sf lm => cases h; exact ⟨_, fun _ => rfl, fun g => commandWrites_colourDepth lm g sf⟩
  | gteCdp sf lm =>
    cases h
    exact ⟨_, fun _ => rfl, fun g => (commandWrites_irLight lm g sf).trans (commandWrites_colourDepth lm _ sf)⟩
  | gteCc sf lm =>
    cases h
    exact ⟨_, fun _ => rfl, fun g => (commandWrites_irLight lm g sf).trans (commandWrites_colourOnly lm _ sf)⟩
  | gteNcds sf lm => cases h; exact ⟨_, fun _ => rfl, fun g => commandWrites_normalDepth lm g sf .l1⟩
  | gteNccs sf lm => cases h; exact ⟨_, fun _ => rfl, fun g => commandWrites_normalColour lm g sf .l1⟩
  | gteNcs sf lm => cases h; exact ⟨_, fun _ => rfl, fun g => commandWrites_normalLight lm g sf .l1⟩
  | gteNcdt sf lm =>
    cases h
    exact ⟨_, fun _ => rfl, fun g => commandWrites_eachVertex lm g (commandWrites_normalDepth lm · sf)⟩
  | gteNcct sf lm =>
    cases h
    exact ⟨_, fun _ => rfl, fun g => commandWrites_eachVertex lm g (commandWrites_normalColour lm · sf)⟩
  | gteNct sf lm =>
    cases h
    exact ⟨_, fun _ => rfl, fun g => commandWrites_eachVertex lm g (commandWrites_normalLight lm · sf)⟩
  | gteAvsz3 => cases h; exact ⟨_, fun _ => rfl, fun g => commandWrites_averageZ _ g _ _⟩
  | gteAvsz4 => cases h; exact ⟨_, fun _ => rfl, fun g => commandWrites_averageZ _ g _ _⟩
  | gteGpf sf lm | gteGpl sf lm =>
    cases h
    exact ⟨_, fun _ => rfl, fun g =>
      (commandWrites_storeMacs g sf (highFlag_eachLane fun _ => highFlag_checkA ..)).macToIr_colourPush lm⟩
  | _ => cases h

/-! ## The obligation -/

section
variable {lm : Bool} {s : State} {body : Gte → Gte}

/-- The frame of R477 adds the cleared and the closed FLAG. -/
theorem mayHold_frame (h : ∀ g, CommandWrites lm g (body g)) (g : Gte) (n : Reg) :
    MayHold lm g n ((g.frame body).getD n) :=
  (h (g.setC 31 0)).data n

theorem flagWf_frame (h : ∀ g, CommandWrites lm g (body g)) (g : Gte) : flagWf ((g.frame body).getC 31) := by
  rw [frame_getC, if_pos rfl]
  refine flagWf_closeFlag _ ((h _).flag ?_)
  rw [Gte.flag, getC_setC_self]
  rfl

theorem frame_getC_ne (h : ∀ g, CommandWrites lm g (body g)) (g : Gte) {n : Reg} (hn : n ≠ 31) :
    (g.frame body).getC n = g.getC n := by
  rw [frame_getC, if_neg hn, (h _).control n hn, getC_setC_ne _ _ hn]

theorem frame_command (h : ∀ g, CommandWrites lm g (body g)) :
    Frame { gteD := commandD, gteC := [31] } s { s with gte := s.gte.frame body } := by
  refine ⟨fun _ _ => rfl, fun _ _ => rfl, fun _ => rfl, fun _ => rfl, fun n hn => ?_,
    fun n hn => frame_getC_ne h s.gte (by simpa using hn), by simp⟩
  obtain ⟨m, hkind, hv⟩ | hallows := mayHold_frame h s.gte n
  · rw [hv, eq_of_dataKind_kept hn m hkind]
  · rw [dataKind_of_notMem hn] at hallows
    exact hallows.elim

/-- A register alone of its kind keeps its word or gets one the kind allows. -/
theorem frame_getD_of_singleton (h : ∀ g, CommandWrites lm g (body g)) (g : Gte) {n : Reg}
    (hone : ∀ m, dataKind m = dataKind n → m = n) :
    (g.frame body).getD n = g.getD n ∨ (dataKind n).allows lm ((g.frame body).getD n) := by
  obtain ⟨m, hkind, hv⟩ | hallows := mayHold_frame h g n
  · exact .inl (hone m hkind ▸ hv)
  · exact .inr hallows

/-- A register of a FIFO gets a word the FIFO held, or one its kind allows. -/
theorem frame_getD_of_fifo (h : ∀ g, CommandWrites lm g (body g)) (g : Gte) {k : DataKind} {fifo : List Reg}
    (hfifo : ∀ m, dataKind m = k ↔ m ∈ fifo) {n : Reg} (hn : n ∈ fifo) :
    (∃ m ∈ fifo, (g.frame body).getD n = g.getD m) ∨ k.allows lm ((g.frame body).getD n) := by
  obtain rfl := (hfifo n).2 hn
  obtain ⟨m, hkind, hv⟩ | hallows := mayHold_frame h g n
  · exact .inl ⟨m, (hfifo m).1 hkind, hv⟩
  · exact .inr hallows

end

/-- Settles O41: the body starts from a cleared FLAG and writes only what R522 allows. -/
theorem gteCommandLaws : Obligations.GteCommandLaws := by
  intro s i c hcmd hc
  obtain ⟨body, hexec, hbody⟩ := exec_of_gteCmd_commandWrites hcmd
  refine ⟨_, (hexec s).trans (gteCommand_implemented hc body), flagWf_frame hbody s.gte, fun f => ?flagBefore,
    fun l => ?ir, frame_getD_of_singleton hbody s.gte (by decide), frame_getD_of_singleton hbody s.gte (by decide),
    fun n hn => frame_getD_of_fifo hbody s.gte (k := .sz) (by decide) hn,
    fun n hn => frame_getD_of_fifo hbody s.gte (k := .sxy) (by decide) hn,
    frame_command hbody, fun _ => rfl⟩
  case flagBefore =>
    rw [hexec, gteCommand_implemented (s := { s with gte := s.gte.setC 31 f }) hc body, frame_setC_flag]
  case ir =>
    have hone : ∀ m, dataKind m = dataKind l.ir → m = l.ir := by cases l <;> decide
    have hir := frame_getD_of_singleton hbody s.gte hone
    rwa [dataKind_ir] at hir

end Sys2Proof.Machine
end

section
/-! The entry of an exception and the interrupt phase (60_exceptions.md R562, R569-R572): what recomputing IP2 leaves
in COP0, when the interrupt is taken, and the step that takes it. -/

namespace Sys2Proof.Machine

/-! ## IP2 (R569) -/

/-- The bit of Cause that IP2 is. -/
theorem getLsbD_ip2Mask : ∀ k < 32, (0x400 : Word).getLsbD k = decide (k = 10) := by decide

theorem getLsbD_setIp2 (cause : Word) (b : Bool) (k : Nat) :
    (setIp2 cause b).getLsbD k = if k = 10 then b else cause.getLsbD k := by
  by_cases hlt : k < 32
  · simp only [setIp2, BitVec.getLsbD_or, BitVec.getLsbD_and, BitVec.getLsbD_not, BitVec.getLsbD_shiftLeft,
      getLsbD_ip2Mask k hlt, getLsbD_boolWord]
    by_cases h10 : k = 10
    · simp [h10]
    · have hshift : k < 10 ∨ k - 10 ≠ 0 := by omega
      rcases hshift with h | h <;> simp [hlt, h10, h]
  · rw [if_neg (by omega), BitVec.getLsbD_of_ge _ k (Nat.le_of_not_lt hlt),
      BitVec.getLsbD_of_ge _ k (Nat.le_of_not_lt hlt)]

section
variable (s : State)

theorem updateIp2_getCop0_cause :
    s.updateIp2.getCop0 13 = setIp2 (s.getCop0 13) (irqFromLine s.cfg s.lineStatus) :=
  getCop0_setCop0_self ..

theorem updateIp2_getCop0_ne {n : Reg} (hn : n ≠ 13) : s.updateIp2.getCop0 n = s.getCop0 n :=
  getCop0_setCop0_ne s _ hn

end

/-- The default table has bit 0 clear and no other. -/
theorem getLsbD_defaultIrqTable (line : BitVec 8) : defaultIrqTable.getLsbD line.toNat = true ↔ line ≠ 0 := by
  have hzero : line.toNat = 0 ↔ line = 0 := BitVec.toNat_inj (y := 0)
  rw [defaultIrqTable, BitVec.getLsbD_not, BitVec.getLsbD_one]
  simp [line.isLt, hzero]

/-! ## When the interrupt is taken (R570, R572), and the step that takes it (R571) -/

section
variable {s : State}

theorem takesInterrupt_iff :
    s.takesInterrupt = true ↔
      (s.getCop0 12).getLsbD 0 = true ∧
        (((s.getCop0 13).getLsbD 10 = true ∧ (s.getCop0 12).getLsbD 10 = true) ∨
          (s.cfg.swInterrupts = true ∧
            (((s.getCop0 13).getLsbD 8 = true ∧ (s.getCop0 12).getLsbD 8 = true) ∨
              ((s.getCop0 13).getLsbD 9 = true ∧ (s.getCop0 12).getLsbD 9 = true)))) := by
  simp only [State.takesInterrupt, State.interruptPending, State.iec, State.status, State.cause, Bool.and_eq_true,
    Bool.or_eq_true]

theorem step_of_takesInterrupt (hpc : s.cfg.haltPc ≠ some s.pc) (hheld : s.held = false)
    (h : s.sample.updateIp2.takesInterrupt = true) : step s = .next s.sample.updateIp2.interrupted := by
  simp [step, runPhases, State.atHaltPc, hpc, hheld, h]

/-- The entry is from the state whose current instruction is the one at pc, in the slot of the pending branch;
sampling and IP2 touch neither. -/
theorem entered_interrupted :
    Entered .int none { s.sample.updateIp2 with curPC := s.pc, inDelaySlot := s.branchPending }
      s.sample.updateIp2.interrupted := by
  have henter := entered_enter { s.sample.updateIp2 with curPC := s.pc, inDelaySlot := s.branchPending } .int none
  simpa only [State.interrupted, updateIp2_pc, sample_pc, updateIp2_branchPending, sample_branchPending] using henter

end

/-! ## The obligations -/

/-- Settles O27: it is the entry lemma that every raise uses. -/
theorem entryLaws : Obligations.EntryLaws := entered_enter

/-- Settles O51: the condition is asked after IP2 is recomputed, of words that differ from the old ones in IP2 alone. -/
theorem interruptTaken : Obligations.InterruptTaken := by
  intro s hpc hheld line ip2 status cause t take
  have hcause : t.getCop0 13 = setIp2 cause ip2 := by
    rw [updateIp2_getCop0_cause, sample_getCop0, irqFromLine, sample_cfg]
  have hstatus : t.getCop0 12 = status := by
    rw [updateIp2_getCop0_ne _ (by decide), sample_getCop0]
  have hcfg : t.cfg = s.cfg := sample_cfg s
  have hip2 : (t.getCop0 13).getLsbD 10 = ip2 := by rw [hcause, getLsbD_setIp2, if_pos rfl]
  have hkept (k : Nat) (hk : k ≠ 10) : (t.getCop0 13).getLsbD k = cause.getLsbD k := by
    rw [hcause, getLsbD_setIp2, if_neg hk]
  have htake : t.takesInterrupt = true ↔ take := by
    rw [takesInterrupt_iff, hip2, hkept 8 (by decide), hkept 9 (by decide), hstatus, hcfg]
  refine ⟨hip2, hkept, htake, fun h => ?entry, fun htable => ?default⟩
  case entry => exact ⟨_, step_of_takesInterrupt hpc hheld (htake.2 h), entered_interrupted⟩
  case default =>
    show s.cfg.irqTable.getLsbD line.toNat = true ↔ line ≠ 0
    rw [htable, getLsbD_defaultIrqTable]

end Sys2Proof.Machine
end

section
/-! The encoder and the decoder (30_encoding.md R170-R189): decoding an encoded word, format by format, and the words
that reach a catch-all row. -/

namespace Sys2Proof

/-! ## The words no COP0 row matches (R392) -/

/-- `cop0Supported` of a word's function field, by the fields of the word; co is the top bit of rs. -/
theorem cop0Supported_cofunField {w : Word} :
    cop0Supported (cofunField w) = true ↔
      (coField w = false ∧ rsField w ∈ ([0x00, 0x02, 0x04, 0x06] : List (BitVec 5))) ∨
      (coField w = true ∧ functField w ∈ ([0x01, 0x02, 0x06, 0x08, 0x10] : List (BitVec 6))) := by
  have hrs : (cofunField w).extractLsb' 21 5 = rsField w := by
    simp [cofunField, rsField, BitVec.extractLsb'_extractLsb'_of_le]
  have hfunct : (cofunField w).extractLsb' 0 6 = functField w := by
    simp [cofunField, functField, BitVec.extractLsb'_extractLsb'_of_le]
  have hco : (cofunField w).getLsbD 25 = coField w := by simp [cofunField, coField]
  have htop : coField w = (rsField w).getLsbD 4 := by simp [coField, rsField]
  have hlow : (rsField w).getLsbD 4 = true → rsField w ∉ ([0x00, 0x02, 0x04, 0x06] : List (BitVec 5)) := by
    generalize rsField w = r
    revert r
    decide
  rw [cop0Supported]
  simp only [hrs, hfunct, hco]
  rw [← htop] at hlow
  cases hc : coField w <;> simp_all [or_assoc]

theorem decodeCop0_eq_unsupported_iff_cop0Supported {w : Word} :
    decodeCop0 w = .cop0Unsupported (cofunField w) ↔ cop0Supported (cofunField w) = false := by
  rw [decodeCop0_eq_unsupported_iff, ← Bool.not_eq_true (cop0Supported _),
    cop0Supported_cofunField]
  cases coField w <;> simp

/-! ## Decoding an encoded instruction -/

theorem decodeWord_jFormat_cop0Unsupported {cofun : BitVec 26} (h : cop0Supported cofun = false) :
    decodeWord (jFormat 0x10 cofun) = .cop0Unsupported cofun := by
  have hiff := decodeCop0_eq_unsupported_iff_cop0Supported (w := jFormat 0x10 cofun)
  rw [cofunField_jFormat] at hiff
  exact (decodeWord_jFormat ..).trans (hiff.2 h)

/-- The rows the block does not implement, by the table that holds them (R393-R395). -/
theorem decodeWord_encode_of_isUnimplemented {i : Instr} (h : i.isUnimplemented = true) :
    decodeWord (encode i) = i := by
  cases i with
  | cop1 | cop3 => simp [encode, decodeWord_jFormat, instructionOf]
  | lwc0 | lwc1 | lwc3 | swc0 | swc1 | swc3
  | unimplOp14 | unimplOp15 | unimplOp16 | unimplOp17 | unimplOp18 | unimplOp19 | unimplOp1A | unimplOp1B | unimplOp1C
  | unimplOp1D | unimplOp1E | unimplOp1F | unimplOp27 | unimplOp2C | unimplOp2D | unimplOp2F | unimplOp34 | unimplOp35
  | unimplOp36 | unimplOp37 | unimplOp3C | unimplOp3D | unimplOp3E | unimplOp3F =>
    simp [encode, decodeWord_iFormat, instructionOf]
  | unimplRegimm02 | unimplRegimm03 | unimplRegimm04 | unimplRegimm05 | unimplRegimm06 | unimplRegimm07 | unimplRegimm08
  | unimplRegimm09 | unimplRegimm0A | unimplRegimm0B | unimplRegimm0C | unimplRegimm0D | unimplRegimm0E | unimplRegimm0F
  | unimplRegimm12 | unimplRegimm13 | unimplRegimm14 | unimplRegimm15 | unimplRegimm16 | unimplRegimm17 | unimplRegimm18
  | unimplRegimm19 | unimplRegimm1A | unimplRegimm1B | unimplRegimm1C | unimplRegimm1D | unimplRegimm1E
  | unimplRegimm1F => exact (decodeWord_iFormat_regimm ..).trans rfl
  | unimplSpecial01 | unimplSpecial05 | unimplSpecial0A | unimplSpecial0B | unimplSpecial0E | unimplSpecial0F
  | unimplSpecial14 | unimplSpecial15 | unimplSpecial16 | unimplSpecial17 | unimplSpecial1C | unimplSpecial1D
  | unimplSpecial1E | unimplSpecial1F | unimplSpecial28 | unimplSpecial29 | unimplSpecial2C | unimplSpecial2D
  | unimplSpecial2E | unimplSpecial2F | unimplSpecial30 | unimplSpecial31 | unimplSpecial32 | unimplSpecial33
  | unimplSpecial34 | unimplSpecial35 | unimplSpecial36 | unimplSpecial37 | unimplSpecial38 | unimplSpecial39
  | unimplSpecial3A | unimplSpecial3B | unimplSpecial3C | unimplSpecial3D | unimplSpecial3E | unimplSpecial3F =>
    exact (decodeWord_rFormat_special ..).trans rfl
  | _ => cases h

/-- Every other row is entered by the selector of its format and reads its operands back from the fields the encoder
put them in. -/
theorem decodeWord_encode {i : Instr} (h : i.wellFormed = true) : decodeWord (encode i) = i := by
  by_cases hunimpl : i.isUnimplemented = true
  · exact decodeWord_encode_of_isUnimplemented hunimpl
  cases i with
  | sll | srl | sra | sllv | srlv | srav | jr | jalr | mfhi | mthi | mflo | mtlo | mult | multu | div | divu
  | add | addu | sub | subu | and | or | xor | nor | slt | sltu =>
    simp [encode, decodeWord_rFormat, instructionOf, decodeSpecial, specialOf]
  | syscall | break_ => simp [encode, decodeWord_codeFormat, specialOf]
  | bltz | bgez | bltzal | bgezal => simp [encode, decodeWord_iFormat, instructionOf, decodeRegimm, regimmOf]
  | beq | bne | blez | bgtz | addi | addiu | slti | sltiu | andi | ori | xori | lui
  | lb | lh | lwl | lw | lbu | lhu | lwr | sb | sh | swl | sw | swr | lwc2 | swc2 =>
    simp [encode, decodeWord_iFormat, instructionOf]
  | j | jal => simp [encode, decodeWord_jFormat, instructionOf]
  | mfc0 | cfc0 | mtc0 | ctc0 => simp [encode, decodeWord_rFormat, instructionOf, decodeCop0, cop0MoveOf]
  | tlbr | tlbwi | tlbwr | tlbp | rfe => exact decodeWord_copWord ..
  | mfc2 | cfc2 | mtc2 | ctc2 => simp [encode, decodeWord_rFormat, instructionOf, decodeCop2, cop2Of]
  | cop0Unsupported cofun => exact decodeWord_jFormat_cop0Unsupported (by simpa [Instr.wellFormed] using h)
  | gteUnknown cmd =>
    exact (decodeWord_gteFormat ..).trans (gteCommandOf_of_notMem _ (by simpa [Instr.wellFormed] using h))
  | gteRtps | gteNclip | gteOp | gteDpcs | gteIntpl | gteMvmva | gteNcds | gteCdp | gteNcdt | gteNccs | gteCc
  | gteNcs | gteNct | gteSqr | gteDcpl | gteDpct | gteAvsz3 | gteAvsz4 | gteRtpt | gteGpf | gteGpl | gteNcct =>
    simp [encode, decodeWord_gteFormat, gteCommandOf]
  | _ => exact absurd rfl hunimpl

/-! ## The catch-all rows -/

theorem specialOf_wellFormed (f : BitVec 6) (w : Word) : (specialOf f w).wellFormed = true := by
  unfold specialOf
  split <;> rfl

theorem regimmOf_wellFormed (b : BitVec 5) (w : Word) : (regimmOf b w).wellFormed = true := by
  unfold regimmOf
  split <;> rfl

/-- The number of an unknown command is none of the rows' (R442). -/
theorem gteCommandOf_wellFormed (cmd : BitVec 6) (w : Word) : (gteCommandOf cmd w).wellFormed = true := by
  by_cases h : cmd ∈ gteCmdNumbers
  · unfold gteCommandOf
    split
    case h_23 => simp_all [gteCmdNumbers]
    all_goals rfl
  · rw [gteCommandOf_of_notMem w h]
    simpa [Instr.wellFormed] using h

theorem cop2Of_wellFormed (r : BitVec 5) (w : Word) : (cop2Of r w).wellFormed = true := by
  unfold cop2Of
  split
  case h_5 => exact gteCommandOf_wellFormed ..
  all_goals rfl

/-- The catch-all of COP0 gets the words no row of its two tables matches. -/
theorem decodeCop0_wellFormed (w : Word) : (decodeCop0 w).wellFormed = true := by
  by_cases h : decodeCop0 w = .cop0Unsupported (cofunField w)
  · rw [h]
    simpa [Instr.wellFormed] using decodeCop0_eq_unsupported_iff_cop0Supported.1 h
  · revert h
    unfold decodeCop0 cop0OperationOf cop0MoveOf
    split
    · split
      case h_6 => exact absurd rfl
      all_goals exact fun _ => rfl
    · split
      case h_5 => exact absurd rfl
      all_goals exact fun _ => rfl

theorem instructionOf_wellFormed (op : BitVec 6) (w : Word) : (instructionOf op w).wellFormed = true := by
  unfold instructionOf
  split
  case h_1 => exact specialOf_wellFormed ..
  case h_2 => exact regimmOf_wellFormed ..
  case h_3 => exact decodeCop0_wellFormed w
  case h_4 => exact cop2Of_wellFormed ..
  all_goals rfl

end Sys2Proof

namespace Sys2Proof.Machine

/-- Settles O1: the word decodes back, and the bytes are the word's. -/
theorem decodeOfEncode : Obligations.DecodeOfEncode := fun i h =>
  ⟨decodeWord_encode h, fun rest => by rw [decode_bytesOfWord, decodeWord_encode h]⟩

/-- Settles O2: each table answers its rows, and a catch-all only what no row of its table has. -/
theorem decodeGivesWellFormed : Obligations.DecodeGivesWellFormed := fun w => instructionOf_wellFormed _ w

/-- Settles O5: each word is decoded field by field. -/
theorem exampleWordsDecode : Obligations.ExampleWordsDecode := by
  unfold Obligations.ExampleWordsDecode
  decide

end Sys2Proof.Machine
end

section
/-! What every effect of an instruction leaves (`exec_effect`): the setting it runs in, the hazard bookkeeping,
the branch state, the diagnostics and the device events; and the bytes of memory when the instruction is no
store. -/

namespace Sys2Proof.Machine

/-! ## The setting of an instruction -/

/-- What no instruction changes: the parameters, the ROM, the inputs of the step, and the instruction's own word,
address and delay-slot flag. -/
structure SameSetting (s t : State) : Prop where
  cfg : t.cfg = s.cfg
  rom : t.rom = s.rom
  lineStatus : t.lineStatus = s.lineStatus
  inputs : t.inputs = s.inputs
  curPC : t.curPC = s.curPC
  word : t.word = s.word
  inDelaySlot : t.inDelaySlot = s.inDelaySlot

/-- pc and the hazard bookkeeping, which only an exception entry changes while an instruction runs. -/
structure SamePcAndHazards (s t : State) : Prop where
  pc : t.pc = s.pc
  lastLoadDest : t.lastLoadDest = s.lastLoadDest
  lastLwlLwr : t.lastLwlLwr = s.lastLwlLwr
  gteWriteAge : t.gteWriteAge = s.gteWriteAge
  hiloReadAge : t.hiloReadAge = s.hiloReadAge

/-- The branch state is as before. -/
structure SameBranchState (s t : State) : Prop where
  pending : t.branchPending = s.branchPending
  target : t.branchTarget = s.branchTarget

section
variable {s t u : State} {ea v : Word} {n : Width}

theorem SameSetting.trans (h : SameSetting s t) (h' : SameSetting t u) : SameSetting s u :=
  ⟨h'.cfg.trans h.cfg, h'.rom.trans h.rom, h'.lineStatus.trans h.lineStatus, h'.inputs.trans h.inputs,
    h'.curPC.trans h.curPC, h'.word.trans h.word, h'.inDelaySlot.trans h.inDelaySlot⟩

theorem SamePcAndHazards.trans (h : SamePcAndHazards s t) (h' : SamePcAndHazards t u) : SamePcAndHazards s u :=
  ⟨h'.pc.trans h.pc, h'.lastLoadDest.trans h.lastLoadDest, h'.lastLwlLwr.trans h.lastLwlLwr,
    h'.gteWriteAge.trans h.gteWriteAge, h'.hiloReadAge.trans h.hiloReadAge⟩

theorem SameBranchState.trans (h : SameBranchState s t) (h' : SameBranchState t u) : SameBranchState s u :=
  ⟨h'.pending.trans h.pending, h'.target.trans h.target⟩

theorem memRead_sameSetting (h : memRead ea n s = .ok (v, t)) : SameSetting s t := by
  rw [(memRead_state h).1]
  constructor <;> rfl

theorem memWrite_sameSetting (h : memWrite ea n v s = .ok t) : SameSetting s t := by
  rw [(memWrite_state h).1]
  constructor <;> rfl

theorem memRead_samePcAndHazards (h : memRead ea n s = .ok (v, t)) : SamePcAndHazards s t := by
  rw [(memRead_state h).1]
  constructor <;> rfl

theorem memWrite_samePcAndHazards (h : memWrite ea n v s = .ok t) : SamePcAndHazards s t := by
  rw [(memWrite_state h).1]
  constructor <;> rfl

theorem memRead_sameBranchState (h : memRead ea n s = .ok (v, t)) : SameBranchState s t := by
  rw [(memRead_state h).1]
  constructor <;> rfl

theorem memWrite_sameBranchState (h : memWrite ea n v s = .ok t) : SameBranchState s t := by
  rw [(memWrite_state h).1]
  constructor <;> rfl

theorem memRead_cop0 (h : memRead ea n s = .ok (v, t)) : t.cop0 = s.cop0 := by
  rw [(memRead_state h).1]

theorem memWrite_cop0 (h : memWrite ea n v s = .ok t) : t.cop0 = s.cop0 := by
  rw [(memWrite_state h).1]

theorem memRead_gte (h : memRead ea n s = .ok (v, t)) : t.gte = s.gte := by
  rw [(memRead_state h).1]

theorem memWrite_gte (h : memWrite ea n v s = .ok t) : t.gte = s.gte := by
  rw [(memWrite_state h).1]

end

section
variable {i : Instr} {s t : State}

theorem Effect.sameSetting (e : Effect i s t) : SameSetting s t := by
  cases e with
  | loads _ read | loadsGte _ read => exact (memRead_sameSetting read).trans (by constructor <;> simp)
  | stores _ write => exact memWrite_sameSetting write
  | merges _ read write => exact (memRead_sameSetting read).trans (memWrite_sameSetting write)
  | _ => constructor <;> simp

/-- Exactly the entry of an exception changes pc or the bookkeeping. -/
theorem Effect.raises_or_samePcAndHazards (e : Effect i s t) :
    (i.mayRaise = true ∧ ∃ c a, t = s.enter c a) ∨ SamePcAndHazards s t := by
  cases e with
  | raises may => exact .inl ⟨may, _, _, rfl⟩
  | loads _ read | loadsGte _ read => exact .inr ((memRead_samePcAndHazards read).trans (by constructor <;> simp))
  | stores _ write => exact .inr (memWrite_samePcAndHazards write)
  | merges _ read write => exact .inr ((memRead_samePcAndHazards read).trans (memWrite_samePcAndHazards write))
  | _ => right; constructor <;> simp

/-- The target changes only when a branch is taken. -/
theorem Effect.branchTarget_cases (e : Effect i s t) : t.branchPending = true ∨ t.branchTarget = s.branchTarget := by
  cases e with
  | jumps | jumpsAndLinks => left; simp
  | @branches c | @branchesAndLinks c =>
    cases c with
    | true => left; simp [State.branchIf]
    | false => right; simp [State.branchIf]
  | raises => right; simp
  | loads _ read | loadsGte _ read => right; simpa using (memRead_sameBranchState read).target
  | stores _ write => exact .inr (memWrite_sameBranchState write).target
  | merges _ read write => exact .inr ((memRead_sameBranchState read).trans (memWrite_sameBranchState write)).target
  | _ => right; simp

/-! ## Memories -/

/-- Only a store changes a memory. -/
theorem Effect.memories_of_not_store (e : Effect i s t) (hstore : i.isStore = false) :
    t.ram = s.ram ∧ t.scratch = s.scratch ∧ t.cacheCtrl = s.cacheCtrl := by
  cases e with
  | loads _ read | loadsGte _ read =>
    rw [(memRead_state read).1]
    simp
  | stores store | merges store => exact absurd (hstore.symm.trans store) Bool.false_ne_true
  | _ => simp

theorem Effect.memoriesWf (e : Effect i s t) (h : s.memoriesWf) : t.memoriesWf := by
  cases e with
  | loads _ read | loadsGte _ read => simpa [State.memoriesWf] using memRead_memoriesWf read h
  | stores _ write => exact memWrite_memoriesWf write h
  | merges _ read write => exact memWrite_memoriesWf write (memRead_memoriesWf read h)
  | _ => simpa [State.memoriesWf] using h

end

/-! ## Branches

`Effect` does not say which instructions branch; the families of the dispatch do. -/

section
variable {i : Instr} {s t : State}

/-- A branch may be pending afterwards only if one was before. -/
def NoNewBranch (s t : State) : Prop := t.branchPending = true → s.branchPending = true

theorem NoNewBranch.of_eq (h : t.branchPending = s.branchPending) : NoNewBranch s t := fun ht => h ▸ ht

theorem NoNewBranch.of_next {u : State} (h : (.next u : Result) = .next t) (hu : u.branchPending = s.branchPending) :
    NoNewBranch s t := .of_eq (Host.Outcome.next.inj h ▸ hu)

theorem NoNewBranch.enter (c : ExcCode) (a : Option Word) : NoNewBranch s (s.enter c a) := by
  simp [NoNewBranch]

theorem NoNewBranch.of_raise {c : ExcCode} {a : Option Word} (h : raise c a s = .next t) : NoNewBranch s t :=
  Host.Outcome.next.inj h ▸ .enter c a

theorem NoNewBranch.of_writeRegOrOverflow {r : Reg} {v : Word} {trap : Bool}
    (h : writeRegOrOverflow r v trap s = .next t) : NoNewBranch s t := by
  cases trap with
  | true => exact .of_raise h
  | false => exact .of_next h (setReg_branchPending ..)

theorem NoNewBranch.of_loadWith {n : Width} {ea : Word} {deliver : Word → State → State}
    (hdeliver : ∀ v u, (deliver v u).branchPending = u.branchPending) (h : loadWith n ea deliver s = .next t) :
    NoNewBranch s t := by
  obtain ⟨-, rfl⟩ | ⟨-, v, u, hread, rfl⟩ := loadWith_next h
  · exact NoNewBranch.enter _ _
  · exact .of_eq ((hdeliver v u).trans (memRead_sameBranchState hread).pending)

theorem NoNewBranch.of_storeWith {n : Width} {ea v : Word} (h : storeWith n ea v s = .next t) : NoNewBranch s t := by
  obtain ⟨-, rfl⟩ | ⟨-, hwrite⟩ := storeWith_next h
  · exact NoNewBranch.enter _ _
  · exact .of_eq (memWrite_sameBranchState hwrite).pending

theorem NoNewBranch.of_loadUnaligned {ea : Word} {r : Reg} {merge : Word → Word → Word → Word}
    (h : loadUnaligned ea r merge s = .next t) : NoNewBranch s t := by
  obtain ⟨w, u, hread, ⟨-, rfl⟩ | ⟨-, rfl⟩⟩ := loadUnaligned_next h
  all_goals exact .of_eq ((setReg_branchPending ..).trans (memRead_sameBranchState hread).pending)

theorem NoNewBranch.of_storeUnaligned {ea : Word} {r : Reg} {merge : Word → Word → Word → Word}
    (h : storeUnaligned ea r merge s = .next t) : NoNewBranch s t := by
  obtain ⟨-, hwrite⟩ | ⟨-, hpartial⟩ := storeUnaligned_next h
  · exact .of_eq (memWrite_sameBranchState hwrite).pending
  · obtain ⟨-, m, u, hread, hwrite⟩ := storePartial_next hpartial
    exact .of_eq ((memRead_sameBranchState hread).trans (memWrite_sameBranchState hwrite)).pending

theorem NoNewBranch.of_gteCommand {c : GteCmd} {body : Gte → Gte} (h : gteCommand c body s = .next t) :
    NoNewBranch s t := by
  obtain ⟨-, hnext⟩ | ⟨-, hnext⟩ := gteCommand_next c body s
  · exact .of_next (hnext.symm.trans h) rfl
  · exact .of_next (hnext.symm.trans h) rfl

/-- An instruction that is no branch or jump makes no branch pending. -/
theorem exec_noNewBranch (hb : i.isBranchOrJump = false) (h : exec i s = .next t) : NoNewBranch s t := by
  cases i with
  | j | jal | jr | jalr | beq | bne | blez | bgtz | bltz | bgez | bltzal | bgezal => cases hb
  | add | sub | addi => exact .of_writeRegOrOverflow h
  | lb | lbu | lh | lhu | lw => exact .of_loadWith (fun _ _ => setReg_branchPending ..) h
  | lwc2 rt => exact .of_loadWith (deliver := fun v u => u.gteWriteD rt v) (fun _ _ => rfl) h
  | lwl | lwr => exact .of_loadUnaligned h
  | sb | sh | sw | swc2 => exact .of_storeWith h
  | swl | swr => exact .of_storeUnaligned h
  | syscall | break_ => exact .of_raise h
  | gteRtps | gteNclip | gteOp | gteDpcs | gteIntpl | gteMvmva | gteNcds | gteCdp | gteNcdt | gteNccs | gteCc
  | gteNcs | gteNct | gteSqr | gteDcpl | gteDpct | gteAvsz3 | gteAvsz4 | gteRtpt | gteGpf | gteGpl
  | gteNcct => exact .of_gteCommand h
  | mult | multu | div | divu | mthi | mtlo | mtc0 | rfe | mtc2 | ctc2 => exact .of_next h rfl
  | addu | subu | and | or | xor | nor | slt | sltu
  | sll | srl | sra | sllv | srlv | srav
  | addiu | slti | sltiu | andi | ori | xori | lui
  | mfhi | mflo | mfc0 | mfc2 | cfc2 => exact .of_next h (setReg_branchPending ..)
  | _ => exact .of_next h rfl

end

/-! ## The diagnostics and the device events -/

/-- The logs of `t` are those of `s` with at most `m` diagnostics and at most `n` device events appended. -/
def Appends (m n : Nat) (s t : State) : Prop :=
  (∃ ds, t.diag = s.diag ++ ds ∧ ds.length ≤ m) ∧ ∃ es, t.events = s.events ++ es ∧ es.length ≤ n

section
variable {s t u : State} {m n m' n' : Nat}

theorem Appends.of_eq (hd : t.diag = s.diag) (he : t.events = s.events) : Appends m n s t :=
  ⟨⟨[], by simp [hd]⟩, [], by simp [he]⟩

theorem Appends.of_length_add {ds : List Diagnostic} {es : List BusEvent} (hd : t.diag = s.diag ++ ds)
    (he : t.events = s.events ++ es) (hlength : ds.length + es.length ≤ 1) : Appends 1 1 s t :=
  ⟨⟨ds, hd, by omega⟩, es, he, by omega⟩

theorem Appends.trans (h : Appends m n s t) (h' : Appends m' n' t u) : Appends (m + m') (n + n') s u := by
  obtain ⟨⟨ds, hd, hds⟩, es, he, hes⟩ := h
  obtain ⟨⟨ds', hd', hds'⟩, es', he', hes'⟩ := h'
  refine ⟨⟨ds ++ ds', ?_, ?_⟩, es ++ es', ?_, ?_⟩
  · rw [hd', hd, List.append_assoc]
  · rw [List.length_append]
    omega
  · rw [he', he, List.append_assoc]
  · rw [List.length_append]
    omega

theorem Appends.mono (h : Appends m n s t) (hm : m ≤ m') (hn : n ≤ n') : Appends m' n' s t := by
  obtain ⟨⟨ds, hd, hds⟩, es, he, hes⟩ := h
  exact ⟨⟨ds, hd, hds.trans hm⟩, es, he, hes.trans hn⟩

theorem Appends.congr (h : Appends m n s t) (hd : u.diag = t.diag) (he : u.events = t.events) : Appends m n s u :=
  h.trans (.of_eq hd he : Appends 0 0 t u)

end

section
variable {s t : State} {ea v : Word} {k : Width}

theorem memRead_appends (h : memRead ea k s = .ok (v, t)) : Appends 1 1 s t := by
  obtain ⟨-, ds, es, hd, he, hlength⟩ := memRead_state h
  exact .of_length_add hd he hlength

theorem memWrite_appends (h : memWrite ea k v s = .ok t) : Appends 1 1 s t := by
  obtain ⟨-, -, ds, es, hd, he, hlength⟩ := memWrite_state h
  exact .of_length_add hd he hlength

theorem reachesDevice_eq_true_iff :
    reachesDevice s ea = true ↔ ∃ d, placeOf s.cfg (translate s.cfg ea) = .device d := by
  unfold reachesDevice placeOf
  simp only
  by_cases hlocal : (inScratch s.cfg (translate s.cfg ea) || inCacheCtrl s.cfg (translate s.cfg ea)) = true
  · simp [hlocal]
  · rw [if_neg hlocal, if_neg hlocal]
    cases rangeAt s.cfg (translate s.cfg ea) with
    | none => simp
    | some r =>
      obtain ⟨base, size, device⟩ := r
      cases device <;> simp

/-- A read that reaches no device records no event. -/
theorem memRead_events_of_not_reachesDevice (hdevice : reachesDevice s ea = false) (h : memRead ea k s = .ok (v, t)) :
    t.events = s.events := by
  unfold memRead scratchRead cacheCtrlRead busRead at h
  unfold reachesDevice at hdevice
  simp only at h hdevice
  split_ifs at h with hscratch _ hcache
  · obtain ⟨-, rfl⟩ := by simpa using h
    rfl
  · obtain ⟨-, rfl⟩ := by simpa using h
    rfl
  · cases hrange : rangeAt s.cfg (translate s.cfg ea) with
    | none =>
      rw [hrange] at h
      obtain ⟨-, rfl⟩ := by simpa using h
      rfl
    | some r =>
      rw [hrange] at h hdevice
      obtain ⟨base, size, device⟩ := r
      cases device with
      | ram | rom =>
        simp only at h
        split_ifs at h
        obtain ⟨-, rfl⟩ := by simpa using h
        rfl
      | _ => simp [hscratch, hcache] at hdevice

/-- What `exec` appends for one access: a record or an event. -/
theorem Effect.appends_of_not_store {i : Instr} (e : Effect i s t) (hstore : i.isStore = false) : Appends 2 1 s t := by
  cases e with
  | loads _ read | loadsGte _ read =>
    exact ((memRead_appends read).congr (by simp) (by simp)).mono (by decide) (by decide)
  | stores store | merges store => exact absurd (hstore.symm.trans store) Bool.false_ne_true
  | @records d => exact ⟨⟨[d], by simp⟩, [], by simp⟩
  | _ => exact .of_eq (by simp) (by simp)

theorem appends_of_storeWith (h : storeWith k ea v s = .next t) : Appends 2 1 s t := by
  obtain ⟨-, rfl⟩ | ⟨-, hwrite⟩ := storeWith_next h
  · exact .of_eq (by simp) (by simp)
  · exact (memWrite_appends hwrite).mono (by decide) (by decide)

/-- A merge reads no device, so its read appends a diagnostic at most. -/
theorem appends_of_storeUnaligned {r : Reg} {merge : Word → Word → Word → Word}
    (h : storeUnaligned ea r merge s = .next t) : Appends 2 1 s t := by
  obtain ⟨-, hwrite⟩ | ⟨-, hpartial⟩ := storeUnaligned_next h
  · exact (memWrite_appends hwrite).mono (by decide) (by decide)
  · obtain ⟨hdevice, m, u, hread, hwrite⟩ := storePartial_next hpartial
    have hquiet : Appends 1 0 s u :=
      ⟨(memRead_appends hread).1, [], by simp [memRead_events_of_not_reachesDevice hdevice hread]⟩
    exact hquiet.trans (memWrite_appends hwrite)

/-- An instruction appends at most two diagnostics and one event. -/
theorem exec_appends {i : Instr} (h : exec i s = .next t) : Appends 2 1 s t := by
  by_cases hstore : i.isStore = false
  · exact (exec_effect h).appends_of_not_store hstore
  cases i with
  | sb | sh | sw | swc2 => exact appends_of_storeWith h
  | swl | swr => exact appends_of_storeUnaligned h
  | _ => exact absurd rfl hstore

end

end Sys2Proof.Machine
end

section
/-! What a step does as a whole (42_control.md R300-R306): every way it can answer a next state, said once (`StepFrom`),
and the statements about every step that follow. -/

namespace Sys2Proof.Machine

/-! ## Every way a step can answer a next state -/

/-- The next states a step of `s` may answer: the held step, the interrupt, the fetch address error, or the instruction
of the fetched word, the nop among them (`exec_nop`). -/
inductive StepFrom (s : State) : State → Prop
  | held : StepFrom s s.sample
  | takesInterrupt : StepFrom s s.sample.updateIp2.interrupted
  | misfetches : StepFrom s s.sample.updateIp2.fetchError
  | runs {w : Word} {v t : State} (fetched : fetch s.pc s.sample.updateIp2 = .ok (w, v))
      (ran : exec (decodeWord w) ((v.advance w).noteHazards (decodeWord w)) = .next t) : StepFrom s t

section
variable {s t u : State} {w : Word}

/-- A word that runs is its instruction with the bookkeeping noted; nothing refused it, unless it is the nop. -/
theorem exec_of_runWord (h : runWord w u = .next t) :
    exec (decodeWord w) (u.noteHazards (decodeWord w)) = .next t ∧ (w ≠ 0 → refusalBefore (decodeWord w) u = none) := by
  obtain ⟨rfl, rfl⟩ | ⟨-, hrefusal, hexec⟩ := runWord_next h
  · exact ⟨exec_nop _, absurd rfl⟩
  · exact ⟨hexec, fun _ => hrefusal⟩

theorem step_stepFrom (h : step s = .next t) : StepFrom s t := by
  obtain ⟨-, ⟨-, rfl⟩ | ⟨-, hphases⟩⟩ := step_next h
  · exact .held
  · obtain ⟨-, rfl⟩ | ⟨-, -, rfl⟩ | ⟨-, -, w, v, hfetch, hword⟩ := runPhases_next hphases
    · exact .takesInterrupt
    · exact .misfetches
    · exact .runs (sample_pc s ▸ hfetch) (exec_of_runWord hword).1

/-! ## The state an instruction runs in -/

/-- The step that runs `w` executes it, and then no branch in a delay slot was refused. -/
theorem exec_of_reaches (h : Reaches s w u) (hstep : step s = .next t) :
    exec (decodeWord w) (u.noteHazards (decodeWord w)) = .next t ∧
      (w ≠ 0 → refusalBefore (decodeWord w) u = none) :=
  exec_of_runWord ((step_of_reaches h).symm.trans hstep)

end

/-! ## The record of a fetch -/

section
variable {s v : State} {a w : Word}

theorem fetch_of_rangeAt_none (hrange : rangeAt s.cfg (translate s.cfg a) = none) :
    fetch a s = .ok (0, s.record (.unhandledRead (translate s.cfg a) .word)) := by
  rw [fetch, busRead, hrange]

/-- A fetch that answers from a range does what its device does. -/
theorem fetch_of_rangeAt_some {r : BusRange} (hrange : rangeAt s.cfg (translate s.cfg a) = some r)
    (h : fetch a s = .ok (w, v)) :
    (r.device = .ram → w = Memory.readLE s.ram ((translate s.cfg a).toNat - r.base) 4 ∧ v = s) ∧
    (r.device = .rom → w = Memory.readLE s.rom ((translate s.cfg a).toNat - r.base) 4 ∧ v = s) ∧
    ∀ d, r.device = .peripheral d → (w, v) = deviceRead d (translate s.cfg a) .word s := by
  rw [fetch, busRead, hrange] at h
  simp only at h
  split_ifs at h
  refine ⟨fun hd => ?_, fun hd => ?_, fun d hd => ?_⟩
  all_goals
    rw [hd] at h
    simp only [Except.ok.injEq] at h
  · exact ⟨(congrArg Prod.fst h).symm, (congrArg Prod.snd h).symm⟩
  · exact ⟨(congrArg Prod.fst h).symm, (congrArg Prod.snd h).symm⟩
  · exact h.symm

/-- A fetch records a diagnostic and answers the nop, or records an event at most. -/
theorem fetch_appends (h : fetch a s = .ok (w, v)) : (w = 0 ∧ Appends 1 0 s v) ∨ Appends 0 1 s v := by
  cases hrange : rangeAt s.cfg (translate s.cfg a) with
  | none =>
    rw [fetch_of_rangeAt_none hrange] at h
    obtain ⟨rfl, rfl⟩ := by simpa using h
    exact .inl ⟨rfl, ⟨[_], record_diag .., by simp⟩, [], by simp⟩
  | some r =>
    right
    obtain ⟨hram, hrom, hdevice⟩ := fetch_of_rangeAt_some hrange h
    cases hd : r.device with
    | ram => exact .of_eq (congrArg State.diag (hram hd).2) (congrArg State.events (hram hd).2)
    | rom => exact .of_eq (congrArg State.diag (hrom hd).2) (congrArg State.events (hrom hd).2)
    | peripheral d =>
      obtain rfl := congrArg Prod.snd (hdevice d hd)
      exact ⟨⟨[], by simp⟩, [_], rfl, by simp⟩

end

/-! ## The invariant of the bookkeeping -/

section
variable {s t : State} {i : Instr}

theorem hazardsWf_of_none (hload : s.lastLoadDest = none) (hlwlLwr : s.lastLwlLwr = none) (hgte : s.gteWriteAge = none)
    (hhilo : s.hiloReadAge = none) : s.hazardsWf := by
  simp [State.hazardsWf, ageWf, hload, hlwlLwr, hgte, hhilo]

theorem hazardsWf_enter (c : ExcCode) (a : Option Word) : (s.enter c a).hazardsWf :=
  hazardsWf_of_none (by simp) (by simp) (by simp) (by simp)

theorem SamePcAndHazards.hazardsWf (h : SamePcAndHazards s t) (hcfg : t.cfg = s.cfg) (hs : s.hazardsWf) :
    t.hazardsWf := by
  rwa [State.hazardsWf, hcfg, h.lastLoadDest, h.lastLwlLwr, h.gteWriteAge, h.hiloReadAge]

theorem ageWf_ageOnce (age : Option Nat) : ageWf (ageOnce age) := by
  unfold ageOnce
  split
  · split
    · exact .inr (.inr (by simp; omega))
    · exact .inl rfl
  · exact .inl rfl

theorem loadDest_ne_zero (i : Instr) : loadDest i ≠ some 0 := by
  unfold loadDest
  split
  case h_11 => simp
  all_goals
    split
    · simp
    · simpa using ‹_›

theorem loadDest_of_lwlLwrDest {r : Reg} (h : lwlLwrDest i = some r) : r = 0 ∨ loadDest i = some r := by
  unfold lwlLwrDest at h
  split at h
  case h_3 => cases h
  all_goals
    cases h
    simp only [loadDest]
    split
    · exact .inl ‹_›
    · exact .inr rfl

theorem noteHazards_hazardsWf (h : s.hazardsWf) : (s.noteHazards i).hazardsWf := by
  unfold State.noteHazards
  split
  case h_1 => exact h
  case h_2 hpolicy =>
    refine ⟨by simp [hpolicy], loadDest_ne_zero i, ?_, ?_, fun _ => loadDest_of_lwlLwrDest⟩
    all_goals
      dsimp only
      split
      · exact .inr (.inl rfl)
      · exact ageWf_ageOnce _

theorem Effect.hazardsWf (e : Effect i s t) (h : s.hazardsWf) : t.hazardsWf := by
  obtain ⟨-, c, a, rfl⟩ | hsame := e.raises_or_samePcAndHazards
  · exact hazardsWf_enter c a
  · exact hsame.hazardsWf e.sameSetting.cfg h

end

/-! ## What every step keeps -/

theorem sample_inputs (s : State) : s.sample.inputs = s.inputs.tail := by
  unfold State.sample
  split <;> simp [*]

section
variable {s t : State}

/-- The setting of the step itself: the parameters, the ROM and the inputs sampled. -/
theorem StepFrom.setting (h : StepFrom s t) :
    t.cfg = s.cfg ∧ t.rom = s.rom ∧ t.lineStatus = s.sample.lineStatus ∧ t.inputs = s.inputs.tail := by
  cases h with
  | held => simp [sample_inputs]
  | takesInterrupt => simp [State.interrupted, sample_inputs]
  | misfetches => simp [State.fetchError, sample_inputs]
  | runs fetched ran =>
    obtain ⟨hcfg, hrom, hline, hinputs, -⟩ := (exec_effect ran).sameSetting
    rw [hcfg, hrom, hline, hinputs, (fetch_state fetched).1]
    simp [sample_inputs]

/-- A fetch that records a diagnostic answers the nop, which records nothing more. -/
theorem StepFrom.appends (h : StepFrom s t) : Appends 2 2 s t := by
  cases h with
  | held => exact .of_eq (by simp) (by simp)
  | takesInterrupt => exact .of_eq (by simp [State.interrupted]) (by simp [State.interrupted])
  | misfetches => exact .of_eq (by simp [State.fetchError]) (by simp [State.fetchError])
  | runs fetched ran =>
    have hquiet : Appends 0 0 s s.sample.updateIp2 := .of_eq (by simp) (by simp)
    obtain ⟨rfl, hfetch⟩ | hfetch := fetch_appends fetched
    · rw [exec_nop] at ran
      cases ran
      exact ((hquiet.trans hfetch).congr (by simp) (by simp)).mono (by decide) (by decide)
    · exact ((hquiet.trans hfetch).congr (by simp) (by simp)).trans (exec_appends ran)

theorem StepFrom.inv (h : StepFrom s t) (hs : s.Inv) : t.Inv := by
  obtain ⟨hmemories, hzero, hhazards⟩ := hs
  cases h with
  | held =>
    refine ⟨by simpa [State.memoriesWf] using hmemories, by simpa using hzero, ?_⟩
    exact SamePcAndHazards.hazardsWf (s := s) (by constructor <;> simp) (by simp) hhazards
  | takesInterrupt =>
    exact ⟨by simpa [State.memoriesWf, State.interrupted] using hmemories, by simpa [State.interrupted] using hzero,
      hazardsWf_enter ..⟩
  | misfetches =>
    exact ⟨by simpa [State.memoriesWf, State.fetchError] using hmemories, by simpa [State.fetchError] using hzero,
      hazardsWf_enter ..⟩
  | @runs w v _ fetched ran =>
    have effect := exec_effect ran
    obtain ⟨hv, -⟩ := fetch_state fetched
    have hfetched : v.memoriesWf := fetch_memoriesWf fetched (by simpa [State.memoriesWf] using hmemories)
    refine ⟨effect.memoriesWf (by simpa [State.memoriesWf] using hfetched), effect.regs_zero.trans ?_,
      effect.hazardsWf (noteHazards_hazardsWf ?_)⟩
    · rw [hv]
      simpa using hzero
    · refine SamePcAndHazards.hazardsWf (s := { s with pc := (v.advance w).pc }) ?_ ?_ hhazards
      all_goals rw [hv]
      · constructor <;> simp
      · simp

end

/-! ## The obligations -/

/-- Settles O59: the fetch records a diagnostic or an event, an instruction at most two and one. -/
theorem stepNeverRewritesHistory : Obligations.StepNeverRewritesHistory := by
  intro s t hstep
  obtain ⟨hcfg, hrom, hline, hinputs⟩ := (step_stepFrom hstep).setting
  exact ⟨hcfg, hrom, hline, hinputs, (step_stepFrom hstep).appends⟩

/-- Settles O56: an exception entry clears the bookkeeping, and the instruction of the word fetched notes its own. -/
theorem invariantKept : Obligations.InvariantKept := fun _ _ hinv hstep => (step_stepFrom hstep).inv hinv

/-- Settles O57: the memories are empty, every register is 0, and the default map is a finite list. -/
theorem invariantAtReset : Obligations.InvariantAtReset := by
  refine ⟨⟨reset_memoriesWf, rfl, hazardsWf_of_none rfl rfl rfl rfl⟩, by decide, by decide⟩

/-- The machine after power-on is what a reset of it leaves. -/
theorem hostReset_reset : State.reset.hostReset = State.reset := rfl

/-- Settles O60: power-on is a host reset too, and its registers are vectors of zeros but for Status and PRId. -/
theorem resetValues : Obligations.ResetValues := by
  refine ⟨⟨rfl, fun _ => ⟨rfl, rfl, rfl⟩⟩, fun s hs => ?_⟩
  obtain ⟨r, rfl⟩ : ∃ r, s = State.hostReset r := hs.elim (fun h => ⟨State.reset, h.trans hostReset_reset.symm⟩) id
  refine ⟨rfl, fun q => ?_, rfl, rfl, rfl, rfl, rfl, rfl, fun n => ⟨?_, ?_⟩, rfl, rfl, rfl, rfl⟩
  · simp [State.getGeneralRegister, State.getReg, State.hostReset, State.reset]
  · simp [Gte.getD, State.hostReset, State.reset]
  · simp [Gte.getC, State.hostReset, State.reset]

/-- Settles O50. -/
theorem holdAndEndOfRun : Obligations.HoldAndEndOfRun := by
  intro s
  refine ⟨fun hpc => by simp [step, State.atHaltPc, hpc], fun hpc input rest hinputs hhold => ?_⟩
  simp [step, State.atHaltPc, hpc, State.held, State.sample, hinputs, hhold]

/-- Settles O52: the entry is from the state whose current instruction is the one at pc, as for an interrupt. -/
theorem misalignedFetch : Obligations.MisalignedFetch := by
  intro s hpc hheld hinterrupt halign
  have hmisaligned : s.sample.updateIp2.misalignedPc = true :=
    misaligned_eq_true (n := .word) (by simpa [Width.bytes] using halign)
  refine ⟨s.sample.updateIp2.fetchError, ?_, ?_⟩
  · simp [step, runPhases, State.atHaltPc, hpc, hheld, hinterrupt, hmisaligned]
  · have henter :=
      entered_enter { s.sample.updateIp2 with curPC := s.pc, inDelaySlot := s.branchPending } .adEL (some s.pc)
    simpa only [State.fetchError, updateIp2_pc, sample_pc, updateIp2_branchPending, sample_branchPending] using henter

/-- Settles O49: the fetch changes only the records, and what it answers is the four bytes of a memory or the
device's. -/
theorem stepRunsDecodedInstruction : Obligations.StepRunsDecodedInstruction := by
  refine ⟨fun s u w hreach hrefusal => ?step, fun s u w hreach => ?state, fun s u w hreach => ?word, fun w => ?bytes⟩
  case step =>
    rw [step_of_reaches hreach, runWord, hrefusal]
    split_ifs with hnop
    · rw [hnop, exec_nop]
    · rfl
  case state =>
    obtain ⟨-, -, -, -, v, hfetch, rfl⟩ := hreach
    obtain ⟨hv, -⟩ := fetch_state hfetch
    have hregs : (v.advance w).regs = s.regs := by rw [hv]; simp
    have hcop0 (n : Reg) : (v.advance w).getCop0 n = s.sample.updateIp2.getCop0 n := by rw [hv]; rfl
    refine ⟨?_, rfl, ?_, rfl, ?_, getReg_congr hregs, ?_, ?_, ?_,
      fun n hn => by rw [hcop0, updateIp2_getCop0_ne _ hn, sample_getCop0],
      fun k hk => by rw [hcop0, updateIp2_getCop0_cause, getLsbD_setIp2, if_neg hk, sample_getCop0],
      ?_, ?_, ?_, ?_, ?_, ?_, ?_, ?_, ?_, ?_⟩
    all_goals
      rw [hv]
      simp
  case word =>
    obtain ⟨-, -, -, -, v, hfetch, rfl⟩ := hreach
    have hcfg : s.sample.updateIp2.cfg = s.cfg := by simp
    refine ⟨fun hrange => ?none, fun r hrange => ?some⟩
    case none =>
      rw [fetch_of_rangeAt_none (by rwa [hcfg])] at hfetch
      obtain ⟨rfl, rfl⟩ := by simpa using hfetch
      simp
    case some =>
      obtain ⟨hram, hrom, hdevice⟩ := fetch_of_rangeAt_some (by rwa [hcfg]) hfetch
      rw [hcfg] at hram hrom hdevice
      refine ⟨fun hd => ?ram, fun hd => ?rom, fun d hd => ?device⟩
      case ram =>
        obtain ⟨rfl, rfl⟩ := hram hd
        exact ⟨fun k hk => (byteOf_readLE _ _ (n := .word) hk).trans (by simp), by simp⟩
      case rom =>
        obtain ⟨rfl, rfl⟩ := hrom hd
        exact ⟨fun k hk => (byteOf_readLE _ _ (n := .word) hk).trans (by simp), by simp⟩
      case device =>
        obtain ⟨rfl, rfl⟩ := Prod.mk.inj (hdevice d hd)
        exact ⟨by simp, by simp⟩
  case bytes =>
    refine ⟨by simpa using decode_bytesOfWord w [], fun k hk => ?_⟩
    interval_cases k <;> rfl

/-- Settles O53. -/
theorem branchDelay : Obligations.BranchDelay := by
  intro s t u w hreach hstep
  obtain ⟨hexec, hrefusal⟩ := exec_of_reaches hreach hstep
  obtain ⟨-, hstate, -⟩ := stepRunsDecodedInstruction
  obtain ⟨hcurPC, -, hslot, hpending, hpc, -, -, -, htarget, -⟩ := hstate s u w hreach
  have effect := exec_effect hexec
  have setting := effect.sameSetting
  refine ⟨?pc, ?curPC, ?slot, ?pending, ?target⟩
  case pc =>
    obtain ⟨hraise, c, a, rfl⟩ | hsame := effect.raises_or_samePcAndHazards
    · exact .inr ⟨hraise, by simp [State.bev, State.status]⟩
    · exact .inl (by simpa [hpc] using hsame.pc)
  case curPC => rw [setting.curPC, noteHazards_curPC, hcurPC]
  case slot => simpa [hslot] using setting.inDelaySlot
  case pending =>
    intro ht
    have hbranch : (decodeWord w).isBranchOrJump = true := by
      by_contra hb
      have := exec_noNewBranch (by simpa using hb) hexec ht
      simp [hpending] at this
    refine ⟨?_, hbranch⟩
    have hnop : w ≠ 0 := by
      rintro rfl
      exact absurd hbranch (by decide)
    have hnone := hrefusal hnop
    by_contra hdelay
    have hdelayed : s.branchPending = true := by simpa using hdelay
    simp [refusalBefore, hbranch, hslot, hdelayed] at hnone
  case target =>
    intro ht
    exact effect.branchTarget_cases.resolve_right fun h => ht (by simpa [htarget] using h)

end Sys2Proof.Machine
end

section
/-! The register bank under `field` (45_gte_regs.md R421-R428): what a move and a command leave in the 16-bit registers
and in FLAG, and the invariant every step keeps. -/

namespace Sys2Proof.Machine

/-! ## 16-bit values kept in words -/

section
variable {v : Word}

theorem unsigned16_of_toNat_le (h : v.toNat ≤ 0xFFFF) : unsigned16 v := by
  apply BitVec.eq_of_toNat_eq
  rw [BitVec.toNat_setWidth, BitVec.toNat_setWidth]
  omega

theorem unsigned16_keepUnsigned16 (v : Word) : unsigned16 (keepUnsigned16 v) := by
  refine unsigned16_of_toNat_le ?_
  rw [keepUnsigned16_eq_setWidth, BitVec.toNat_setWidth]
  omega

theorem signed16_of_toInt (hlow : -0x8000 ≤ v.toInt) (hhigh : v.toInt ≤ 0x7FFF) : signed16 v := by
  apply BitVec.eq_of_toInt_eq
  rw [BitVec.toInt_signExtend_of_le (by decide), BitVec.toInt_setWidth, Int.bmod_def]
  rw [BitVec.toInt_eq_toNat_cond] at hlow hhigh ⊢
  split_ifs at * <;> omega

theorem signed16_keepSigned16 (v : Word) : signed16 (keepSigned16 v) := by
  rw [keepSigned16_eq_signExtend]
  apply signed16_of_toInt <;> rw [BitVec.toInt_signExtend_of_le (by decide)]
  · exact BitVec.le_toInt _
  · exact Int.le_of_lt_add_one BitVec.toInt_lt

theorem signed16_of_toNat_le (h : v.toNat ≤ 0x7FFF) : signed16 v := by
  have hint : v.toInt = v.toNat := BitVec.toInt_eq_toNat_of_lt (by omega)
  exact signed16_of_toInt (by omega) (by omega)

theorem signed16_irOfColour5 (lo : Nat) : signed16 (irOfColour5 v lo) :=
  signed16_of_toNat_le (by rw [toNat_irOfColour5]; omega)

end

/-! ## The words a register may hold under field -/

/-- Data register `n` may hold the word under field. -/
def DataHalf (n : Reg) (w : Word) : Prop := (n ∈ signedD → signed16 w) ∧ (n ∈ unsignedD → unsigned16 w)

/-- Control register `n` may hold the word under field. -/
def ControlHalf (n : Reg) (w : Word) : Prop :=
  (n ∈ signedC → signed16 w) ∧ (n = 26 → unsigned16 w) ∧ (n = 31 → flagWf w)

theorem fieldWf_iff {g : Gte} : g.fieldWf ↔ (∀ n, DataHalf n (g.getD n)) ∧ ∀ n, ControlHalf n (g.getC n) := by
  refine ⟨fun ⟨hsigned, hunsigned, hcontrol, hplane, hflag⟩ => ⟨fun n => ⟨hsigned n, hunsigned n⟩, fun n =>
    ⟨hcontrol n, fun h => h ▸ hplane, fun h => h ▸ hflag⟩⟩, fun ⟨hdata, hcontrol⟩ => ?_⟩
  exact ⟨fun n => (hdata n).1, fun n => (hdata n).2, fun n => (hcontrol n).1, (hcontrol 26).2.1 rfl,
    (hcontrol 31).2.2 rfl⟩

section
variable {g : Gte} {n : Reg} {v w : Word}

theorem dataHalf_of_notMem (hsigned : n ∉ signedD) (hunsigned : n ∉ unsignedD) : DataHalf n w :=
  ⟨fun h => absurd h hsigned, fun h => absurd h hunsigned⟩

theorem fieldWf_setD (hg : g.fieldWf) (hw : DataHalf n w) : (g.setD n w).fieldWf := by
  obtain ⟨hdata, hcontrol⟩ := fieldWf_iff.1 hg
  refine fieldWf_iff.2 ⟨fun q => ?_, hcontrol⟩
  rw [getD_setD]
  split
  case isTrue h => exact h ▸ hw
  case isFalse => exact hdata q

theorem fieldWf_setC (hg : g.fieldWf) (hw : ControlHalf n w) : (g.setC n w).fieldWf := by
  obtain ⟨hdata, hcontrol⟩ := fieldWf_iff.1 hg
  refine fieldWf_iff.2 ⟨hdata, fun q => ?_⟩
  rw [getC_setC]
  split
  case isTrue h => exact h ▸ hw
  case isFalse => exact hcontrol q

/-! ## The moves -/

/-- Every data register is of one of the classes a write in field mode knows. -/
theorem dataClasses (n : Reg) :
    n ∈ signedD ∨ n ∈ unsignedD ∨ n ∈ wholeD ∨ n = 15 ∨ n = 28 ∨ n = 29 ∨ n = 31 := by
  revert n
  decide

theorem fieldWf_pushSxy (hg : g.fieldWf) : (g.pushSxy v).fieldWf :=
  fieldWf_setD (fieldWf_setD (fieldWf_setD hg (dataHalf_of_notMem (by decide) (by decide)))
    (dataHalf_of_notMem (by decide) (by decide))) (dataHalf_of_notMem (by decide) (by decide))

theorem dataHalf_ir (l : Lane) (hw : signed16 w) : DataHalf l.ir w :=
  ⟨fun _ => hw, fun h => absurd h (by cases l <;> decide)⟩

theorem fieldWf_setIrsFromColour (hg : g.fieldWf) : (g.setIrsFromColour v).fieldWf :=
  fieldWf_setD (fieldWf_setD (fieldWf_setD hg (dataHalf_ir .l1 (signed16_irOfColour5 0)))
    (dataHalf_ir .l2 (signed16_irOfColour5 5))) (dataHalf_ir .l3 (signed16_irOfColour5 10))

theorem fieldWf_writeFieldD (hg : g.fieldWf) : (g.writeFieldD n v).fieldWf := by
  obtain h | h | h | rfl | rfl | h := dataClasses n
  · rw [writeFieldD_of_mem_signedD g v h]
    exact fieldWf_setD hg ⟨fun _ => signed16_keepSigned16 v, fun h' => absurd h' (by revert n; decide)⟩
  · rw [writeFieldD_of_mem_unsignedD g v h]
    exact fieldWf_setD hg ⟨fun h' => absurd h' (by revert n; decide), fun _ => unsigned16_keepUnsigned16 v⟩
  · rw [writeFieldD_of_mem_wholeD g v h]
    exact fieldWf_setD hg (dataHalf_of_notMem (by revert n; decide) (by revert n; decide))
  · exact fieldWf_pushSxy hg
  · exact fieldWf_setIrsFromColour hg
  · rwa [writeFieldD_readOnly g v h]

theorem controlClasses (n : Reg) : n ∈ signedC ∨ n = 26 ∨ n = 31 ∨ n ∉ halfC ++ [31] := by
  revert n
  decide

theorem fieldWf_writeFieldC (hg : g.fieldWf) : (g.writeFieldC n v).fieldWf := by
  obtain h | rfl | rfl | h := controlClasses n
  · rw [writeFieldC_of_mem_signedC g v h]
    exact fieldWf_setC hg ⟨fun _ => signed16_keepSigned16 v, fun h' => absurd (h' ▸ h) (by decide),
      fun h' => absurd (h' ▸ h) (by decide)⟩
  · exact fieldWf_setC hg ⟨fun h => absurd h (by decide), fun _ => unsigned16_keepUnsigned16 v,
      fun h => absurd h (by decide)⟩
  · exact fieldWf_setC hg ⟨fun h => absurd h (by decide), fun h => absurd h (by decide), fun _ => flagWf_flagWritten v⟩
  · rw [writeFieldC_of_notMem g v h]
    exact fieldWf_setC hg ⟨fun h' => absurd h (by revert n; decide), fun h' => absurd h (by revert n; decide),
      fun h' => absurd h (by revert n; decide)⟩

/-! ## The commands -/

/-- Registers of one kind hold words of one shape. -/
theorem dataHalf_congr_dataKind {m : Reg} (h : dataKind m = dataKind n) (hm : DataHalf m w) : DataHalf n w := by
  have hmem : ∀ m n : Reg, dataKind m = dataKind n → (n ∈ signedD → m ∈ signedD) ∧ (n ∈ unsignedD → m ∈ unsignedD) := by
    decide
  obtain ⟨hsigned, hunsigned⟩ := hmem m n h
  exact ⟨fun hn => hm.1 (hsigned hn), fun hn => hm.2 (hunsigned hn)⟩

/-- What a command puts into a register of a kind is a 16-bit value where the register is one. -/
theorem dataHalf_of_allows {lm : Bool} (h : (dataKind n).allows lm w) : DataHalf n w := by
  have kinds : ∀ n : Reg, (n ∈ signedD → dataKind n = .kept n ∨ dataKind n = .ir0 ∨
        ∃ l ∈ [Lane.l1, .l2, .l3], dataKind n = .ir l) ∧
      (n ∈ unsignedD → dataKind n = .otz ∨ dataKind n = .sz) := by decide
  refine ⟨fun hn => ?_, fun hn => ?_⟩
  · obtain hk | hk | ⟨l, -, hk⟩ := (kinds n).1 hn <;> rw [hk] at h
    · exact h.elim
    · exact signed16_of_toNat_le (h.trans (by decide))
    · exact signed16_of_toInt h.1 h.2.1
  · obtain hk | hk := (kinds n).2 hn <;> rw [hk] at h <;> exact unsigned16_of_toNat_le h

theorem fieldWf_frame {lm : Bool} {body : Gte → Gte} (hbody : ∀ g, CommandWrites lm g (body g)) (hg : g.fieldWf) :
    (g.frame body).fieldWf := by
  obtain ⟨hdata, hcontrol⟩ := fieldWf_iff.1 hg
  refine fieldWf_iff.2 ⟨fun n => ?_, fun n => ?_⟩
  · obtain ⟨m, hkind, hv⟩ | hallows := mayHold_frame hbody g n
    · exact hv ▸ dataHalf_congr_dataKind hkind (hdata m)
    · exact dataHalf_of_allows hallows
  · by_cases hn : n = 31
    · subst hn
      exact ⟨fun h => absurd h (by decide), fun h => absurd h (by decide), fun _ => flagWf_frame hbody g⟩
    · rw [frame_getC_ne hbody g hn]
      exact hcontrol n

end

/-! ## Instructions and steps -/

section
variable {i : Instr} {s t : State}

theorem exec_fieldWf (hmode : s.cfg.gteMoveMode = .field) (hg : s.gte.fieldWf) (h : exec i s = .next t) :
    t.gte.fieldWf := by
  have hwriteD (u : State) (n : Reg) (v : Word) (hu : u.cfg.gteMoveMode = .field) (hg : u.gte.fieldWf) :
      (u.gteWriteD n v).gte.fieldWf := by
    show (u.gte.writeD u.cfg.gteMoveMode n v).fieldWf
    rw [hu]
    exact fieldWf_writeFieldD hg
  by_cases hcmd : ∃ c, i.gteCmd = some c
  case pos =>
    obtain ⟨c, hc⟩ := hcmd
    obtain ⟨body, hexec, hbody⟩ := exec_of_gteCmd_commandWrites hc
    rw [hexec] at h
    obtain ⟨-, hnext⟩ | ⟨-, hnext⟩ := gteCommand_next c body s <;> rw [hnext] at h <;> cases h
    · exact fieldWf_frame hbody hg
    · exact hg
  case neg =>
    cases exec_effect h with
    | writesGteD => exact hwriteD s _ _ hmode hg
    | writesGteC =>
      show (s.gte.writeC s.cfg.gteMoveMode _ _).fieldWf
      rw [hmode]
      exact fieldWf_writeFieldC hg
    | loadsGte _ read =>
      exact hwriteD _ _ _ (by rwa [(memRead_sameSetting read).cfg]) (by rwa [memRead_gte read])
    | runsCommand cmd => exact absurd ⟨_, cmd⟩ hcmd
    | loads _ read => simpa [memRead_gte read] using hg
    | stores _ write => rwa [memWrite_gte write]
    | merges _ read write => rwa [memWrite_gte write, memRead_gte read]
    | _ => simpa using hg

end

/-- Settles O58: only the instruction of a step touches the bank. -/
theorem gteFieldInvariantKept : Obligations.GteFieldInvariantKept := by
  intro s t hmode hg hstep
  cases step_stepFrom hstep with
  | held => simpa using hg
  | takesInterrupt => simpa [State.interrupted] using hg
  | misfetches => simpa [State.fetchError] using hg
  | runs fetched ran =>
    obtain ⟨hv, -⟩ := fetch_state fetched
    exact exec_fieldWf (by rw [hv]; simpa using hmode) (by rw [hv]; simpa using hg) ran

end Sys2Proof.Machine
end

section
/-! The hazard policy (70_reset_and_hazards.md R625-R631): what the table of R631 says of a word, by its fields, is what
the model asks of the decoded instruction; and the refusals and the bookkeeping of a step.

Each row of a decoder table answers a question of R631 by computation, so a table is a split into its rows and `rfl`. -/

namespace Sys2Proof

open Machine

section
variable (w : Word) (mode : UnalignedMode)

/-! ## The tables of the decoder -/

theorem hazardReads_specialOf (f : BitVec 6) :
    hazardReads mode (specialOf f w) =
      (if f ∈ ([0x04, 0x06, 0x07, 0x08, 0x09, 0x11, 0x13, 0x18, 0x19, 0x1A, 0x1B] ++
        [0x20, 0x21, 0x22, 0x23, 0x24, 0x25, 0x26, 0x27, 0x2A, 0x2B] : List (BitVec 6)) then [rs w] else []) ++
      (if f ∈ ([0x00, 0x02, 0x03, 0x04, 0x06, 0x07, 0x18, 0x19, 0x1A, 0x1B] ++
        [0x20, 0x21, 0x22, 0x23, 0x24, 0x25, 0x26, 0x27, 0x2A, 0x2B] : List (BitVec 6)) then [rt w] else []) := by
  unfold specialOf
  split
  case h_64 =>
    rw [if_neg (by simp_all), if_neg (by simp_all)]
    rfl
  all_goals rfl

theorem hiLo_specialOf (f : BitVec 6) :
    writesHiLo (specialOf f w) = decide (f ∈ ([0x11, 0x13, 0x18, 0x19, 0x1A, 0x1B] : List (BitVec 6))) ∧
      readsHiLo (specialOf f w) = decide (f ∈ ([0x10, 0x12] : List (BitVec 6))) := by
  unfold specialOf
  split
  case h_64 =>
    rw [decide_eq_false (by simp_all), decide_eq_false (by simp_all)]
    exact ⟨rfl, rfl⟩
  all_goals exact ⟨rfl, rfl⟩

theorem noLoad_noGte_specialOf (f : BitVec 6) :
    loadDest (specialOf f w) = none ∧ lwlLwrDest (specialOf f w) = none ∧ isGteCommand (specialOf f w) = false ∧
      writesGteRegister (specialOf f w) = false := by
  unfold specialOf
  split <;> exact ⟨rfl, rfl, rfl, rfl⟩

theorem hazardReads_regimmOf (b : BitVec 5) :
    hazardReads mode (regimmOf b w) =
      if b ∈ ([0x00, 0x01, 0x10, 0x11] : List (BitVec 5)) then [rs w] else [] := by
  unfold regimmOf
  split
  case h_32 =>
    rw [if_neg (by simp_all)]
    rfl
  all_goals rfl

theorem onlyReads_regimmOf (b : BitVec 5) :
    loadDest (regimmOf b w) = none ∧ lwlLwrDest (regimmOf b w) = none ∧ isGteCommand (regimmOf b w) = false ∧
      writesGteRegister (regimmOf b w) = false ∧ writesHiLo (regimmOf b w) = false ∧
      readsHiLo (regimmOf b w) = false := by
  unfold regimmOf
  split <;> exact ⟨rfl, rfl, rfl, rfl, rfl, rfl⟩

/-- Of COP0 only mtc0 reads a register and only mfc0 loads one; co is the top bit of rs. -/
theorem hazards_decodeCop0 :
    hazardReads mode (decodeCop0 w) = (if rsField w = 0x04 then [rt w] else []) ∧
      loadDest (decodeCop0 w) = if rsField w = 0x00 ∧ rt w ≠ 0 then some (rt w) else none := by
  have hco : coField w = (rsField w).getLsbD 4 := by simp [coField, rsField]
  unfold decodeCop0
  split
  case isTrue h =>
    have hmove : rsField w ≠ 0x04 ∧ rsField w ≠ 0x00 := by
      constructor <;> exact fun hr => by simp [hco, hr] at h
    rw [if_neg hmove.1, if_neg fun h' => hmove.2 h'.1]
    unfold cop0OperationOf
    split <;> exact ⟨rfl, rfl⟩
  case isFalse =>
    unfold cop0MoveOf
    split <;> simp_all [hazardReads, loadDest]

theorem noGte_noHiLo_decodeCop0 :
    lwlLwrDest (decodeCop0 w) = none ∧ isGteCommand (decodeCop0 w) = false ∧ writesGteRegister (decodeCop0 w) = false ∧
      writesHiLo (decodeCop0 w) = false ∧ readsHiLo (decodeCop0 w) = false := by
  unfold decodeCop0 cop0OperationOf cop0MoveOf
  split <;> split <;> exact ⟨rfl, rfl, rfl, rfl, rfl⟩

theorem hazards_gteCommandOf (cmd : BitVec 6) :
    hazardReads mode (gteCommandOf cmd w) = [] ∧ loadDest (gteCommandOf cmd w) = none ∧
      lwlLwrDest (gteCommandOf cmd w) = none ∧ isGteCommand (gteCommandOf cmd w) = true ∧
      writesGteRegister (gteCommandOf cmd w) = false ∧ writesHiLo (gteCommandOf cmd w) = false ∧
      readsHiLo (gteCommandOf cmd w) = false := by
  unfold gteCommandOf
  split <;> exact ⟨rfl, rfl, rfl, rfl, rfl, rfl, rfl⟩

theorem hazards_cop2Of (r : BitVec 5) :
    hazardReads mode (cop2Of r w) = (if r ∈ ([0x04, 0x06] : List (BitVec 5)) then [rt w] else []) ∧
      loadDest (cop2Of r w) = (if r ∈ ([0x00, 0x02] : List (BitVec 5)) ∧ rt w ≠ 0 then some (rt w) else none) ∧
      lwlLwrDest (cop2Of r w) = none ∧
      isGteCommand (cop2Of r w) = decide (r ∉ ([0x00, 0x02, 0x04, 0x06] : List (BitVec 5))) ∧
      writesGteRegister (cop2Of r w) = decide (r ∈ ([0x04, 0x06] : List (BitVec 5))) ∧
      writesHiLo (cop2Of r w) = false ∧ readsHiLo (cop2Of r w) = false := by
  unfold cop2Of
  split
  case h_5 =>
    obtain ⟨hreads, hload, hlwl, hgte, hwrites, hhilo⟩ := hazards_gteCommandOf w mode (functField w)
    refine ⟨hreads.trans ?_, hload.trans ?_, hlwl, hgte.trans ?_, hwrites.trans ?_, hhilo⟩ <;> simp_all
  all_goals simp [hazardReads, loadDest, lwlLwrDest, isGteCommand, writesGteRegister, writesHiLo, readsHiLo,
    Instr.gteCmd]

/-- The opcodes without a table of their own. -/
theorem hazardReads_instructionOf {op : BitVec 6} (h : op ∉ ([0x00, 0x01, 0x10, 0x12] : List (BitVec 6))) :
    hazardReads mode (instructionOf op w) =
      (if op ∈ ([0x04, 0x05, 0x06, 0x07, 0x08, 0x09, 0x0A, 0x0B, 0x0C, 0x0D, 0x0E] ++
        [0x20, 0x21, 0x22, 0x23, 0x24, 0x25, 0x26, 0x28, 0x29, 0x2A, 0x2B, 0x2E, 0x32, 0x3A] : List (BitVec 6))
        then [rs w] else []) ++
      (if op ∈ ([0x04, 0x05, 0x28, 0x29, 0x2A, 0x2B, 0x2E] : List (BitVec 6)) ∨
        (op ∈ ([0x22, 0x26] : List (BitVec 6)) ∧ mode = .exact) then [rt w] else []) := by
  unfold instructionOf
  split
  case h_1 | h_2 | h_3 | h_4 => exact absurd (by decide) h
  case h_64 =>
    rw [if_neg (by simp_all), if_neg (by simp_all)]
    rfl
  case h_35 | h_39 => cases mode <;> rfl
  all_goals rfl

theorem loadDest_instructionOf {op : BitVec 6} (h : op ∉ ([0x00, 0x01, 0x10, 0x12] : List (BitVec 6))) :
    loadDest (instructionOf op w) =
      (if op ∈ ([0x20, 0x21, 0x22, 0x23, 0x24, 0x25, 0x26] : List (BitVec 6)) ∧ rt w ≠ 0 then some (rt w) else none) ∧
    lwlLwrDest (instructionOf op w) =
      if op ∈ ([0x22, 0x26] : List (BitVec 6)) then some (rt w) else none := by
  unfold instructionOf
  split
  case h_1 | h_2 | h_3 | h_4 => exact absurd (by decide) h
  case h_64 =>
    rw [if_neg (by simp_all), if_neg (by simp_all)]
    exact ⟨rfl, rfl⟩
  case h_33 | h_34 | h_35 | h_36 | h_37 | h_38 | h_39 => simp [loadDest, lwlLwrDest]
  all_goals exact ⟨rfl, rfl⟩

theorem coprocessor_hiLo_instructionOf {op : BitVec 6} (h : op ∉ ([0x00, 0x01, 0x10, 0x12] : List (BitVec 6))) :
    isGteCommand (instructionOf op w) = false ∧ writesGteRegister (instructionOf op w) = decide (op = 0x32) ∧
      writesHiLo (instructionOf op w) = false ∧ readsHiLo (instructionOf op w) = false := by
  unfold instructionOf
  split
  case h_1 | h_2 | h_3 | h_4 => exact absurd (by decide) h
  case h_64 =>
    rw [decide_eq_false (by assumption)]
    exact ⟨rfl, rfl, rfl, rfl⟩
  all_goals exact ⟨rfl, rfl, rfl, rfl⟩

end

/-! ## The table of R631, by the fields of the word -/

section
variable {w : Word} {r : Reg}

theorem rsField_eq_regBits_iff : rsField w = regBits r ↔ rs w = r :=
  ⟨fun h => by rw [rs, h, regOf_regBits], fun h => by rw [← h, rs, regBits_regOf]⟩

theorem rtField_eq_regBits_iff : rtField w = regBits r ↔ rt w = r :=
  ⟨fun h => by rw [rt, h, regOf_regBits], fun h => by rw [← h, rt, regBits_regOf]⟩

/-- The table a word's opcode selects. -/
theorem decodeWord_tables (w : Word) :
    (opField w = 0x00 ∧ decodeWord w = specialOf (functField w) w) ∨
    (opField w = 0x01 ∧ decodeWord w = regimmOf (rtField w) w) ∨
    (opField w = 0x10 ∧ decodeWord w = decodeCop0 w) ∨
    (opField w = 0x12 ∧ decodeWord w = cop2Of (rsField w) w) ∨
    (opField w ∉ ([0x00, 0x01, 0x10, 0x12] : List (BitVec 6)) ∧ decodeWord w = instructionOf (opField w) w) := by
  by_cases h0 : opField w = 0x00
  · exact .inl ⟨h0, decodeWord_special h0 rfl⟩
  by_cases h1 : opField w = 0x01
  · exact .inr (.inl ⟨h1, decodeWord_regimm h1 rfl⟩)
  by_cases h10 : opField w = 0x10
  · exact .inr (.inr (.inl ⟨h10, decodeWord_op h10⟩))
  by_cases h12 : opField w = 0x12
  · exact .inr (.inr (.inr (.inl ⟨h12, decodeWord_cop2 h12 rfl⟩)))
  · exact .inr (.inr (.inr (.inr ⟨by simpa using ⟨h0, h1, h10, h12⟩, rfl⟩)))

theorem mem_hazardReads_iff (mode : UnalignedMode) : r ∈ hazardReads mode (decodeWord w) ↔ wordReads mode w r := by
  have mem_ite {p : Prop} [Decidable p] (q : Reg) : r ∈ (if p then [q] else []) ↔ p ∧ q = r := by
    split_ifs <;> simp [*, eq_comm]
  rw [wordReads, readsRs, readsRt, rsField_eq_regBits_iff, rtField_eq_regBits_iff]
  obtain ⟨hop, hw⟩ | ⟨hop, hw⟩ | ⟨hop, hw⟩ | ⟨hop, hw⟩ | ⟨hop, hw⟩ := decodeWord_tables w <;> rw [hw]
  · rw [hazardReads_specialOf, List.mem_append, mem_ite, mem_ite]
    simp [hop]
  · rw [hazardReads_regimmOf, mem_ite]
    simp [hop]
  · rw [(hazards_decodeCop0 w mode).1, mem_ite]
    simp [hop]
  · rw [(hazards_cop2Of w mode _).1, mem_ite]
    simp [hop]
  · rw [hazardReads_instructionOf w mode hop, List.mem_append, mem_ite, mem_ite]
    simp only [List.mem_cons, List.not_mem_nil, or_false, not_or] at hop
    simp only [hop, false_and, false_or, or_false]

theorem loadDest_eq_some_iff : loadDest (decodeWord w) = some r ↔ wordLoads w r := by
  have delivered {p : Prop} [Decidable p] :
      (if p ∧ rt w ≠ 0 then some (rt w) else none) = some r ↔ p ∧ rt w = r ∧ r ≠ 0 := by
    by_cases hp : p <;> by_cases hz : rt w = r <;> simp [hp, hz]
  rw [wordLoads, rtField_eq_regBits_iff]
  obtain ⟨hop, hw⟩ | ⟨hop, hw⟩ | ⟨hop, hw⟩ | ⟨hop, hw⟩ | ⟨hop, hw⟩ := decodeWord_tables w <;> rw [hw]
  · rw [(noLoad_noGte_specialOf w _).1]
    simp [hop]
  · rw [(onlyReads_regimmOf w _).1]
    simp [hop]
  · rw [(hazards_decodeCop0 w .approx).2, delivered]
    simp [hop]
  · rw [(hazards_cop2Of w .approx _).2.1, delivered]
    simp [hop]
  · rw [(loadDest_instructionOf w hop).1, delivered]
    simp only [List.mem_cons, List.not_mem_nil, or_false, not_or] at hop
    simp only [hop, false_and, or_false]

theorem lwlLwrDest_eq_some_iff : lwlLwrDest (decodeWord w) = some r ↔ wordLwlLwr w r := by
  rw [wordLwlLwr, rtField_eq_regBits_iff]
  obtain ⟨hop, hw⟩ | ⟨hop, hw⟩ | ⟨hop, hw⟩ | ⟨hop, hw⟩ | ⟨hop, hw⟩ := decodeWord_tables w <;> rw [hw]
  · rw [(noLoad_noGte_specialOf w _).2.1]
    simp [hop]
  · rw [(onlyReads_regimmOf w _).2.1]
    simp [hop]
  · rw [(noGte_noHiLo_decodeCop0 w).1]
    simp [hop]
  · rw [(hazards_cop2Of w .approx _).2.2.1]
    simp [hop]
  · rw [(loadDest_instructionOf w hop).2]
    simp

theorem isGteCommand_iff : isGteCommand (decodeWord w) = true ↔ wordGteCommand w := by
  rw [wordGteCommand]
  obtain ⟨hop, hw⟩ | ⟨hop, hw⟩ | ⟨hop, hw⟩ | ⟨hop, hw⟩ | ⟨hop, hw⟩ := decodeWord_tables w <;> rw [hw]
  · simp [noLoad_noGte_specialOf, hop]
  · simp [onlyReads_regimmOf, hop]
  · simp [noGte_noHiLo_decodeCop0, hop]
  · simp [hazards_cop2Of w .approx, hop]
  · rw [(coprocessor_hiLo_instructionOf w hop).1]
    simp_all

theorem writesGteRegister_iff : writesGteRegister (decodeWord w) = true ↔ wordWritesGte w := by
  rw [wordWritesGte]
  obtain ⟨hop, hw⟩ | ⟨hop, hw⟩ | ⟨hop, hw⟩ | ⟨hop, hw⟩ | ⟨hop, hw⟩ := decodeWord_tables w <;> rw [hw]
  · simp [noLoad_noGte_specialOf, hop]
  · simp [onlyReads_regimmOf, hop]
  · simp [noGte_noHiLo_decodeCop0, hop]
  · simp [hazards_cop2Of w .approx, hop]
  · rw [(coprocessor_hiLo_instructionOf w hop).2.1]
    simp_all

theorem hiLo_iff :
    (writesHiLo (decodeWord w) = true ↔ wordWritesHiLo w) ∧ (readsHiLo (decodeWord w) = true ↔ wordReadsHiLo w) := by
  rw [wordWritesHiLo, wordReadsHiLo]
  obtain ⟨hop, hw⟩ | ⟨hop, hw⟩ | ⟨hop, hw⟩ | ⟨hop, hw⟩ | ⟨hop, hw⟩ := decodeWord_tables w <;> rw [hw]
  · simp [hiLo_specialOf, hop]
  · simp [onlyReads_regimmOf, hop]
  · simp [noGte_noHiLo_decodeCop0, hop]
  · simp [hazards_cop2Of w .approx, hop]
  · rw [(coprocessor_hiLo_instructionOf w hop).2.2.1, (coprocessor_hiLo_instructionOf w hop).2.2.2]
    simp_all

end

end Sys2Proof

namespace Sys2Proof.Machine

/-! ## The refusals -/

section
variable {s u t : State} {w : Word} {i : Instr}

theorem recent_iff {age : Option Nat} : recent age = true ↔ age = some 0 ∨ age = some 1 := by
  cases age with
  | none => simp [recent]
  | some k =>
    simp only [recent, decide_eq_true_eq, Option.some.injEq]
    omega

theorem loadDelayHazard_iff :
    loadDelayHazard s i = true ↔ ∃ r, s.lastLoadDest = some r ∧ r ∈ hazardReads s.cfg.unalignedMode i ∧
      ¬(lwlLwrDest i = some r ∧ s.lastLwlLwr = some r) := by
  unfold loadDelayHazard
  cases s.lastLoadDest with
  | none => simp
  | some r => simp [lwlLwrPair, imp_iff_not_or]

theorem refusalBefore_of_noBranch (hslot : s.inDelaySlot = true → i.isBranchOrJump = false) :
    refusalBefore i s = hazardCheck i s := by
  rw [refusalBefore, if_neg]
  intro hboth
  rw [Bool.and_eq_true] at hboth
  exact absurd hboth.2 (by simp [hslot hboth.1])

/-- A word that is no nop and no branch in a delay slot is refused for a hazard or runs. -/
theorem step_of_hazardCheck_some {e : Refusal} (h : Reaches s w u) (hnop : w ≠ 0)
    (hslot : u.inDelaySlot = true → (decodeWord w).isBranchOrJump = false)
    (hcheck : hazardCheck (decodeWord w) u = some e) : step s = .refused e := by
  rw [step_of_reaches h, runWord, if_neg hnop, refusalBefore_of_noBranch hslot, hcheck]

theorem step_of_hazardCheck_none (h : Reaches s w u) (hnop : w ≠ 0)
    (hslot : u.inDelaySlot = true → (decodeWord w).isBranchOrJump = false)
    (hcheck : hazardCheck (decodeWord w) u = none) : step s = exec (decodeWord w) (u.noteHazards (decodeWord w)) := by
  rw [step_of_reaches h, runWord, if_neg hnop, refusalBefore_of_noBranch hslot, hcheck]

/-! ## The bookkeeping -/

theorem noteHazards_of_refuse (h : s.cfg.hazardPolicy = .refuse) :
    s.noteHazards i = { s with
      lastLoadDest := loadDest i
      lastLwlLwr := lwlLwrDest i
      gteWriteAge := if writesGteRegister i then some 0 else ageOnce s.gteWriteAge
      hiloReadAge := if readsHiLo i then some 0 else ageOnce s.hiloReadAge } := by
  rw [State.noteHazards, h]

theorem noteHazards_of_immediate (h : s.cfg.hazardPolicy = .immediate) : s.noteHazards i = s := by
  rw [State.noteHazards, h]

/-- An exception entry forgets what was noted. -/
theorem noteHazards_enter (c : ExcCode) (a : Option Word) : (s.noteHazards i).enter c a = s.enter c a := by
  cases h : s.cfg.hazardPolicy with
  | immediate => rw [noteHazards_of_immediate h]
  | refuse =>
    rw [noteHazards_of_refuse h]
    cases a <;> rfl

theorem agesTo_ageOnce {p : Prop} {b : Bool} (h : b = true ↔ p) (age : Option Nat) :
    AgesTo p age (if b then some 0 else ageOnce age) := by
  refine ⟨fun hp => if_pos (h.2 hp), fun hp => ?_⟩
  rw [if_neg (mt h.1 hp)]
  cases age with
  | none => rfl
  | some k => cases k <;> simp [ageOnce]

end

/-- Settles O55: the word's fields decide as the table of R631 does, and an instruction that does not raise leaves the
bookkeeping as it was noted. -/
theorem hazardRefusals : Obligations.HazardRefusals := by
  intro s u w hreach i load gte hilo
  obtain ⟨-, hstate, -⟩ := stepRunsDecodedInstruction
  obtain ⟨-, -, -, -, -, -, -, -, -, -, -, -, -, -, -, -, hcfg, hlast, hlwl, hgteAge, hhiloAge⟩ := hstate s u w hreach
  have hload : loadDelayHazard u i = true ↔ load := by
    rw [loadDelayHazard_iff, hcfg, hlast, hlwl]
    simp only [i, mem_hazardReads_iff, lwlLwrDest_eq_some_iff, load]
  have hgte : (isGteCommand i && recent u.gteWriteAge) = true ↔ gte := by
    rw [Bool.and_eq_true, isGteCommand_iff, recent_iff, hgteAge]
  have hhilo : (writesHiLo i && recent u.hiloReadAge) = true ↔ hilo := by
    rw [Bool.and_eq_true, hiLo_iff.1, recent_iff, hhiloAge]
  refine ⟨fun hnop hslot => ⟨fun hpolicy => ?immediate, fun hpolicy => ?refuse⟩, fun hpolicy t hstep => ?bookkeeping⟩
  case immediate =>
    rw [step_of_hazardCheck_none hreach hnop hslot (by rw [hazardCheck, hcfg, hpolicy]),
      noteHazards_of_immediate (by rw [hcfg, hpolicy])]
  case refuse =>
    have hcheck : hazardCheck i u = if loadDelayHazard u i then some .loadDelayHazard
        else if isGteCommand i && recent u.gteWriteAge then some .gteWriteHazard
        else if writesHiLo i && recent u.hiloReadAge then some .hiLoHazard else none := by
      rw [hazardCheck, hcfg, hpolicy]
    refine ⟨fun hl => step_of_hazardCheck_some hreach hnop hslot ?_,
      fun hl hg => step_of_hazardCheck_some hreach hnop hslot ?_,
      fun hl hg hh => step_of_hazardCheck_some hreach hnop hslot ?_,
      fun hl hg hh => step_of_hazardCheck_none hreach hnop hslot ?_⟩
    · rw [hcheck, if_pos (hload.2 hl)]
    · rw [hcheck, if_neg (mt hload.1 hl), if_pos (hgte.2 hg)]
    · rw [hcheck, if_neg (mt hload.1 hl), if_neg (mt hgte.1 hg), if_pos (hhilo.2 hh)]
    · rw [hcheck, if_neg (mt hload.1 hl), if_neg (mt hgte.1 hg), if_neg (mt hhilo.1 hh)]
  case bookkeeping =>
    obtain ⟨hexec, -⟩ := exec_of_reaches hreach hstep
    obtain ⟨hraise, c, a, rfl⟩ | hsame := (exec_effect hexec).raises_or_samePcAndHazards
    · left
      rw [noteHazards_enter]
      exact ⟨hraise, c, a, entered_enter u c a⟩
    · right
      rw [hsame.lastLoadDest, hsame.lastLwlLwr, hsame.gteWriteAge, hsame.hiloReadAge,
        noteHazards_of_refuse (by rw [hcfg, hpolicy]), ← hgteAge, ← hhiloAge]
      exact ⟨fun _ => loadDest_eq_some_iff, fun _ => lwlLwrDest_eq_some_iff, agesTo_ageOnce writesGteRegister_iff _,
        agesTo_ageOnce hiLo_iff.2 _⟩

end Sys2Proof.Machine
end

section
/-! Data accesses by the place of their physical address (20_memory.md R104-R115), and what the unaligned stores
(43_loadstore.md R350-R352) and a load after a store do in each place. -/

namespace Sys2Proof.Machine

/-! ## Places -/

section
variable {cfg : Config} {p : Word}

theorem placeOf_eq_cpuLocal_iff : placeOf cfg p = .cpuLocal ↔ inScratch cfg p = true ∨ inCacheCtrl cfg p = true := by
  unfold placeOf
  split_ifs with hlocal
  · simpa using hlocal
  · refine iff_of_false ?_ (by simpa using hlocal)
    split
    · nofun
    · split <;> nofun

theorem placeOf_of_rangeAt (hscratch : inScratch cfg p = false) (hcache : inCacheCtrl cfg p = false) :
    placeOf cfg p = match (rangeAt cfg p).map BusRange.device with
      | none => .nowhere
      | some .ram => .ram
      | some .rom => .rom
      | some (.peripheral d) => .device d := by
  simp only [placeOf, hscratch, hcache, Bool.or_self, Bool.false_eq_true, if_false]
  cases rangeAt cfg p with
  | none => rfl
  | some r =>
    simp only [Option.map_some]
    cases r.device <;> rfl

theorem notLocal_of_placeOf {q : Place} (h : placeOf cfg p = q) (hq : q ≠ .cpuLocal) :
    inScratch cfg p = false ∧ inCacheCtrl cfg p = false := by
  rw [← h, Ne, placeOf_eq_cpuLocal_iff] at hq
  simpa using hq

theorem rangeAt_of_nowhere (h : placeOf cfg p = .nowhere) : rangeAt cfg p = none := by
  obtain ⟨hscratch, hcache⟩ := notLocal_of_placeOf h nofun
  rw [placeOf_of_rangeAt hscratch hcache] at h
  cases hrange : rangeAt cfg p with
  | none => rfl
  | some r =>
    rw [hrange] at h
    simp only [Option.map_some] at h
    cases hd : r.device <;> simp [hd] at h

theorem rangeAt_of_ram (h : placeOf cfg p = .ram) : ∃ r, rangeAt cfg p = some r ∧ r.device = .ram := by
  obtain ⟨hscratch, hcache⟩ := notLocal_of_placeOf h nofun
  rw [placeOf_of_rangeAt hscratch hcache] at h
  cases hrange : rangeAt cfg p with
  | none => simp [hrange] at h
  | some r =>
    rw [hrange] at h
    simp only [Option.map_some] at h
    cases hd : r.device <;> simp [hd] at h
    exact ⟨r, rfl, hd⟩

end

/-! ## Reads of bytes, and of nothing -/

section
variable {s t : State} {ea v : Word} {n : Width}

/-- A read of a place that holds bytes records nothing. -/
theorem memRead_of_isStorage (hm : s.cfg.mapOk) (ha : ea.toNat % n.bytes = 0)
    (hplace : (placeOf s.cfg (translate s.cfg ea)).isStorage = true) :
    ∃ v, memRead ea n s = .ok (v, s) ∧
      ∀ k, k < n.bytes → s.peek (translate s.cfg ea + BitVec.ofNat 32 k) = some (byteOf v k) := by
  obtain ⟨v, t, hread, hgives⟩ := memRead_gives hm ha
  have hbytes : (∀ k, k < n.bytes → s.peek (translate s.cfg ea + BitVec.ofNat 32 k) = some (byteOf v k)) ∧
      t.diag = s.diag ∧ t.events = s.events ∧ t.draws = s.draws := by
    unfold ReadGives at hgives
    cases hp : placeOf s.cfg (translate s.cfg ea) with
    | cpuLocal | ram | rom =>
      simp only [hp] at hgives
      exact ⟨hgives.1, hgives.2.2⟩
    | device | nowhere => simp [hp, Place.isStorage] at hplace
  obtain ⟨hpeek, hdiag, hevents, hdraws⟩ := hbytes
  have hstate := (memRead_state hread).1
  rw [hdiag, hevents, hdraws] at hstate
  obtain rfl : t = s := hstate
  exact ⟨v, hread, hpeek⟩

theorem memRead_of_nowhere (hplace : placeOf s.cfg (translate s.cfg ea) = .nowhere) :
    memRead ea n s = .ok (0, s.record (.unhandledRead (translate s.cfg ea) n)) := by
  obtain ⟨hscratch, hcache⟩ := notLocal_of_placeOf hplace nofun
  simp [memRead, busRead, hscratch, hcache, rangeAt_of_nowhere hplace]

theorem memWrite_of_nowhere (hplace : placeOf s.cfg (translate s.cfg ea) = .nowhere) :
    memWrite ea n v s = .ok (s.record
      (if s.isolated then .isolatedStore ea n v else .unhandledWrite (translate s.cfg ea) n v)) := by
  obtain ⟨hscratch, hcache⟩ := notLocal_of_placeOf hplace nofun
  simp only [memWrite, busWrite, hscratch, hcache, rangeAt_of_nowhere hplace, Bool.false_eq_true, if_false]
  split_ifs <;> rfl

/-- Outside the CPU-local windows a fetch is the data read of a word. -/
theorem fetch_eq_memRead (hplace : placeOf s.cfg (translate s.cfg ea) ≠ .cpuLocal) :
    fetch ea s = memRead ea .word s := by
  obtain ⟨hscratch, hcache⟩ := notLocal_of_placeOf rfl hplace
  simp [fetch, memRead, hscratch, hcache]

theorem reachesDevice_eq_false (hplace : ∀ d, placeOf s.cfg (translate s.cfg ea) ≠ .device d) :
    reachesDevice s ea = false := by
  rw [← Bool.not_eq_true, reachesDevice_eq_true_iff]
  exact fun ⟨d, hd⟩ => hplace d hd

theorem reachesDevice_eq_false_of_isStorage (hplace : (placeOf s.cfg (translate s.cfg ea)).isStorage = true) :
    reachesDevice s ea = false :=
  reachesDevice_eq_false fun d hd => by simp [hd, Place.isStorage] at hplace

theorem and_wordMask (v : Word) : v &&& Width.word.mask = v := BitVec.and_allOnes

end

/-! ## The two modes of swl and swr -/

section
variable {i : Instr} {s t u : State} {ea m : Word} {rt : Reg} {merge : Word → Word → Word → Word}

theorem storeUnaligned_approx (hmode : s.cfg.unalignedMode = .approx)
    (hwrite : memWrite (alignedWord ea) .word (s.getReg rt) s = .ok t) : storeUnaligned ea rt merge s = .next t := by
  simp [storeUnaligned, hmode, hwrite]

theorem storeUnaligned_exact (hmode : s.cfg.unalignedMode = .exact) (hdevice : reachesDevice s (alignedWord ea) = false)
    (hread : memRead (alignedWord ea) .word s = .ok (m, u))
    (hwrite : memWrite (alignedWord ea) .word (merge ea (s.getReg rt) m) u = .ok t) :
    storeUnaligned ea rt merge s = .next t := by
  simp [storeUnaligned, storePartial, hmode, hdevice, hread, hwrite]

theorem storeUnaligned_device (hmode : s.cfg.unalignedMode = .exact)
    (hdevice : reachesDevice s (alignedWord ea) = true) :
    storeUnaligned ea rt merge s = .refused .partialStoreToDevice := by
  simp [storeUnaligned, storePartial, hmode, hdevice]

theorem stores_of_memWrite {a v : Word} (h : ∀ t, memWrite a .word v s = .ok t → exec i s = .next t)
    (hm : s.cfg.mapOk) (hw : s.memoriesWf) (ha : a.toNat % 4 = 0) : Stores i .word a v s := by
  obtain ⟨t, hwrite, hdoes⟩ := memWrite_does (n := .word) v hm hw ha
  rw [and_wordMask] at hwrite
  exact ⟨t, h t hwrite, hdoes, frame_memWrite hwrite rfl rfl⟩

theorem stores_of_storeUnaligned_approx (h : exec i s = storeUnaligned ea rt merge s) (hm : s.cfg.mapOk)
    (hw : s.memoriesWf) (hmode : s.cfg.unalignedMode = .approx) :
    Stores i .word (alignedWord ea) (s.getReg rt) s :=
  stores_of_memWrite (fun _ hwrite => h.trans (storeUnaligned_approx hmode hwrite)) hm hw (alignedWord_aligned ea)

theorem stores_of_storeUnaligned_exact {v : Word} (h : exec i s = storeUnaligned ea rt merge s) (hm : s.cfg.mapOk)
    (hw : s.memoriesWf) (hmode : s.cfg.unalignedMode = .exact)
    (hdevice : reachesDevice s (alignedWord ea) = false) (hread : memRead (alignedWord ea) .word s = .ok (m, s))
    (hv : merge ea (s.getReg rt) m = v) : Stores i .word (alignedWord ea) v s :=
  stores_of_memWrite (fun _ hwrite => h.trans (storeUnaligned_exact hmode hdevice hread (hv ▸ hwrite))) hm hw
    (alignedWord_aligned ea)

/-- Nothing answers: the read and the dropped write are recorded. -/
theorem records_of_storeUnaligned_nowhere {v : Word} (h : exec i s = storeUnaligned ea rt merge s)
    (hmode : s.cfg.unalignedMode = .exact)
    (hplace : placeOf s.cfg (translate s.cfg (alignedWord ea)) = .nowhere) (hv : merge ea (s.getReg rt) 0 = v) :
    ∃ t, exec i s = .next t ∧
      t.diag = s.diag ++ [.unhandledRead (translate s.cfg (alignedWord ea)) .word,
        if s.isolated then .isolatedStore (alignedWord ea) .word v
        else .unhandledWrite (translate s.cfg (alignedWord ea)) .word v] ∧
      Frame { diag := true } s t ∧ memoryKept s t := by
  have hdevice : reachesDevice s (alignedWord ea) = false := reachesDevice_eq_false fun d => by simp [hplace]
  refine ⟨_, h.trans (storeUnaligned_exact hmode hdevice (memRead_of_nowhere hplace)
    (memWrite_of_nowhere (by simpa using hplace))), ?_, by simp [Frame], memoryKept_of rfl rfl rfl rfl rfl⟩
  subst hv
  simp [State.isolated, State.status]

end

/-! ## Obligations about the unaligned stores -/

/-- Settles O22: where bytes are stored the read of the aligned word changes nothing, and the merges are the table of
R352 byte by byte. -/
theorem unalignedStores : Obligations.UnalignedStores := by
  intro s rt rs imm hm hw w ea a k r p
  refine ⟨by simp [w, decodeWord_iFormat, instructionOf], by simp [w, decodeWord_iFormat, instructionOf],
    fun hmode => ⟨?_, ?_⟩, fun hmode hplace => ?storage, fun hmode d hplace => ?device⟩
  · exact stores_of_storeUnaligned_approx rfl hm hw hmode
  · exact stores_of_storeUnaligned_approx rfl hm hw hmode
  case storage =>
    obtain ⟨m, hread, hpeek⟩ := memRead_of_isStorage (n := .word) hm (alignedWord_aligned ea) hplace
    have hdevice : reachesDevice s (alignedWord ea) = false := reachesDevice_eq_false_of_isStorage hplace
    exact ⟨m, hpeek, stores_of_storeUnaligned_exact rfl hm hw hmode hdevice hread (mergeSwl_bytes ea r m),
      stores_of_storeUnaligned_exact rfl hm hw hmode hdevice hread (mergeSwr_bytes ea r m)⟩
  case device =>
    have hdevice : reachesDevice s (alignedWord ea) = true := reachesDevice_eq_true_iff.2 ⟨d, hplace⟩
    exact ⟨storeUnaligned_device hmode hdevice, storeUnaligned_device hmode hdevice⟩

/-- Settles O23: the read answers 0, so the merge has zeros beside the bytes of rt. -/
theorem unalignedStoresNowhere : Obligations.UnalignedStoresNowhere := by
  intro s rt rs imm hm hmode ea a k r p drop hplace
  have hzero (j : Nat) : byteOf 0 j = 0 := by simp [byteOf]
  exact ⟨records_of_storeUnaligned_nowhere rfl hmode hplace (by simpa only [hzero] using mergeSwl_bytes ea r 0),
    records_of_storeUnaligned_nowhere rfl hmode hplace (by simpa only [hzero] using mergeSwr_bytes ea r 0)⟩

end Sys2Proof.Machine
end

section
/-! The whole-machine rules about memory (20_memory.md R104-R115): an access past the end of what its first byte
selects, a load after a store, who writes the GTE bank and memory. -/

namespace Sys2Proof.Machine

/-! ## An access past the end of its range (R106, R108, R110) -/

section
variable {s : State} {ea v : Word} {n : Width} {p : Word}

theorem busFits_eq_false_iff {cfg : Config} :
    busFits cfg p n = false ↔ ∃ r, rangeAt cfg p = some r ∧ spansRange r p n = true := by
  unfold busFits
  cases rangeAt cfg p with
  | none => simp
  | some r => simp [spansRange]

theorem busRead_of_not_busFits (h : busFits s.cfg p n = false) : busRead p n s = .error .accessSpansRange := by
  obtain ⟨r, hrange, hspans⟩ := busFits_eq_false_iff.1 h
  simp [busRead, hrange, hspans]

theorem busWrite_of_not_busFits (h : busFits s.cfg p n = false) : busWrite p n v s = .error .accessSpansRange := by
  obtain ⟨r, hrange, hspans⟩ := busFits_eq_false_iff.1 h
  simp [busWrite, hrange, hspans]

theorem memRead_of_not_dataFits (h : dataFits s.cfg (translate s.cfg ea) n = false) :
    memRead ea n s = .error .accessSpansRange := by
  unfold dataFits at h
  unfold memRead
  dsimp only
  split_ifs at h ⊢ with hscratch hcache
  · have hlow := (of_decide_eq_true hscratch).1
    rw [decide_eq_false_iff_not] at h
    rw [scratchRead, if_pos (by omega)]
  · have hlow := (of_decide_eq_true hcache).1
    rw [decide_eq_false_iff_not] at h
    rw [cacheCtrlRead, if_pos (by omega)]
  · exact busRead_of_not_busFits h

/-- A write to a CPU-local window is never dropped (R125). -/
theorem memWrite_of_not_dataFits (h : dataFits s.cfg (translate s.cfg ea) n = false)
    (hstored : s.isolated = false ∨ placeOf s.cfg (translate s.cfg ea) = .cpuLocal) :
    memWrite ea n v s = .error .accessSpansRange := by
  unfold dataFits at h
  rw [placeOf_eq_cpuLocal_iff] at hstored
  unfold memWrite
  dsimp only
  split_ifs at h ⊢ with hscratch hcache hisolated
  · have hlow := (of_decide_eq_true hscratch).1
    rw [decide_eq_false_iff_not] at h
    rw [scratchWrite, if_pos (by omega)]
  · have hlow := (of_decide_eq_true hcache).1
    rw [decide_eq_false_iff_not] at h
    rw [cacheCtrlWrite, if_pos (by omega)]
  · simp [hscratch, hcache, hisolated] at hstored
  · exact busWrite_of_not_busFits h

theorem dataFits_byte (cfg : Config) : dataFits cfg p .byte = true := by
  unfold dataFits busFits
  split_ifs with hscratch hcache
  · exact decide_eq_true (of_decide_eq_true hscratch).2
  · exact decide_eq_true (of_decide_eq_true hcache).2
  · cases hrange : rangeAt cfg p with
    | none => rfl
    | some r => exact decide_eq_true (rangeAt_some hrange).2.2

theorem busFits_of_aligned {cfg : Config} (hm : cfg.mapOk) (ha : p.toNat % n.bytes = 0) : busFits cfg p n = true := by
  unfold busFits
  cases hrange : rangeAt cfg p with
  | none => rfl
  | some r => exact decide_eq_true (not_spansRange hm ha hrange)

theorem dataFits_of_aligned {cfg : Config} (hm : cfg.mapOk) (ha : p.toNat % n.bytes = 0) : dataFits cfg p n = true := by
  unfold dataFits
  split_ifs with hscratch hcache
  · have hfits := scratch_fits hm ha hscratch
    have hlow := (of_decide_eq_true hscratch).1
    exact decide_eq_true (by omega)
  · have hfits := cacheCtrl_fits hm ha hcache
    have hlow := (of_decide_eq_true hcache).1
    exact decide_eq_true (by omega)
  · exact busFits_of_aligned hm ha

end

/-! ### The instructions whose access is refused -/

section
variable {s : State} {ea v : Word} {n : Width} {e : Refusal} {rt : Reg} {merge : Word → Word → Word → Word}

theorem loadWith_error {deliver : Word → State → State} (ha : ea.toNat % n.bytes = 0)
    (hread : memRead ea n s = .error e) : loadWith n ea deliver s = .refused e := by
  simp [loadWith, misaligned_eq_false ha, hread]

theorem storeWith_error (ha : ea.toNat % n.bytes = 0) (hwrite : memWrite ea n (v &&& n.mask) s = .error e) :
    storeWith n ea v s = .refused e := by
  simp [storeWith, misaligned_eq_false ha, hwrite]

theorem loadUnaligned_error (hread : memRead (alignedWord ea) .word s = .error e) :
    loadUnaligned ea rt merge s = .refused e := by
  simp [loadUnaligned, hread]

theorem storeUnaligned_approx_error (hmode : s.cfg.unalignedMode = .approx)
    (hwrite : memWrite (alignedWord ea) .word (s.getReg rt) s = .error e) :
    storeUnaligned ea rt merge s = .refused e := by
  simp [storeUnaligned, hmode, hwrite]

theorem storeUnaligned_exact_error (hmode : s.cfg.unalignedMode = .exact)
    (hdevice : reachesDevice s (alignedWord ea) = false) (hread : memRead (alignedWord ea) .word s = .error e) :
    storeUnaligned ea rt merge s = .refused e := by
  simp [storeUnaligned, storePartial, hmode, hdevice, hread]

theorem storeUnaligned_exact_writeError {m : Word} {u : State} (hmode : s.cfg.unalignedMode = .exact)
    (hdevice : reachesDevice s (alignedWord ea) = false) (hread : memRead (alignedWord ea) .word s = .ok (m, u))
    (hwrite : memWrite (alignedWord ea) .word (merge ea (s.getReg rt) m) u = .error e) :
    storeUnaligned ea rt merge s = .refused e := by
  simp [storeUnaligned, storePartial, hmode, hdevice, hread, hwrite]

end

/-- Settles O25: each path checks the end of its window or range before it answers. -/
theorem accessesNeverSpanRanges : Obligations.AccessesNeverSpanRanges := by
  refine ⟨fun s ea v n h => ⟨memRead_of_not_dataFits h, memWrite_of_not_dataFits h⟩,
    fun s a h => busRead_of_not_busFits h, ?instructions,
    fun cfg p => dataFits_byte cfg, fun cfg p n hm ha => ⟨dataFits_of_aligned hm ha, busFits_of_aligned hm ha⟩⟩
  intro s rt rs imm ea p a fails
  refine ⟨fun ha h => ⟨?_, ?_⟩, fun ha h => ⟨?_, ?_⟩, fun h => ⟨?_, ?_⟩,
    fun hstored => ⟨fun ha h => ?_, fun ha h => ⟨?_, ?_⟩⟩, fun hmode hstored h => ⟨?_, ?_⟩,
    fun hmode h => ⟨fun hplace => ?_, fun d hplace => ?_⟩⟩
  · exact loadWith_error ha (memRead_of_not_dataFits h)
  · exact loadWith_error ha (memRead_of_not_dataFits h)
  · exact loadWith_error ha (memRead_of_not_dataFits h)
  · exact loadWith_error ha (memRead_of_not_dataFits h)
  · exact loadUnaligned_error (memRead_of_not_dataFits h)
  · exact loadUnaligned_error (memRead_of_not_dataFits h)
  · exact storeWith_error ha (memWrite_of_not_dataFits h hstored)
  · exact storeWith_error ha (memWrite_of_not_dataFits h hstored)
  · exact storeWith_error ha (memWrite_of_not_dataFits h hstored)
  · exact storeUnaligned_approx_error hmode (memWrite_of_not_dataFits h hstored)
  · exact storeUnaligned_approx_error hmode (memWrite_of_not_dataFits h hstored)
  · have hdevice : reachesDevice s (alignedWord ea) = false := reachesDevice_eq_false hplace
    exact ⟨storeUnaligned_exact_error hmode hdevice (memRead_of_not_dataFits h),
      storeUnaligned_exact_error hmode hdevice (memRead_of_not_dataFits h)⟩
  · have hdevice : reachesDevice s (alignedWord ea) = true := reachesDevice_eq_true_iff.2 ⟨d, hplace⟩
    exact ⟨storeUnaligned_device hmode hdevice, storeUnaligned_device hmode hdevice⟩

/-! ## A load after a store (R111) -/

section
variable {s t : State} {ea v : Word}

/-- What a store stored is what a read of the same place gives. -/
theorem memRead_of_stored (hm : t.cfg.mapOk) (ha : ea.toNat % 4 = 0)
    (hplace : (placeOf t.cfg (translate t.cfg ea)).isStorage = true)
    (hbytes : ∀ k, k < 4 → t.peek (translate t.cfg ea + BitVec.ofNat 32 k) = some (byteOf v k)) :
    memRead ea .word t = .ok (v, t) := by
  obtain ⟨w, hread, hpeek⟩ := memRead_of_isStorage (n := .word) hm ha hplace
  have hw : w = v := word_ext_bytes fun k hk => Option.some.inj ((hpeek k hk).symm.trans (hbytes k hk))
  rwa [hw] at hread

/-- Writing back what was read of RAM changes nothing. -/
theorem memWrite_memRead_ram (hm : s.cfg.mapOk) (hw : s.memoriesWf) (ha : ea.toNat % 4 = 0)
    (hplace : placeOf s.cfg (translate s.cfg ea) = .ram) (hstored : s.isolated = false) :
    ∃ v, memRead ea .word s = .ok (v, s) ∧ memWrite ea .word v s = .ok s := by
  obtain ⟨hscratch, hcache⟩ := notLocal_of_placeOf hplace nofun
  obtain ⟨⟨base, size, device⟩, hrange, rfl⟩ := rangeAt_of_ram hplace
  have hspans : spansRange ⟨base, size, .ram⟩ (translate s.cfg ea) .word = false := by
    have hfits := not_spansRange (n := .word) hm (translate_aligned s.cfg ea .word ha) hrange
    simpa [spansRange] using hfits
  refine ⟨Memory.readLE s.ram ((translate s.cfg ea).toNat - base) 4, ?_, ?_⟩
  · simp [memRead, busRead, hscratch, hcache, hrange, hspans, Width.bytes]
  · have hback := Memory.writeLE_readLE hw.1 ((translate s.cfg ea).toNat - base) 4 (by decide)
    simp [memWrite, busWrite, hscratch, hcache, hrange, hspans, hstored, Width.bytes, hback]

end

/-- Settles O26: the bytes of the store are the bytes the read and the fetch of the same place find. -/
theorem loadAfterStore : Obligations.LoadAfterStore := by
  intro s t rt rq rs imm hm hw ea place ha hexec
  obtain ⟨hmis, -⟩ | ⟨-, hwrite⟩ := storeWith_next (n := .word) (ea := ea) hexec
  · rw [misaligned_eq_false (n := .word) ha] at hmis
    cases hmis
  obtain ⟨t', hwrite', hdoes⟩ := memWrite_does (n := .word) (s.getReg rt) hm hw ha
  obtain rfl : t' = t := Except.ok.inj (hwrite'.symm.trans hwrite)
  have hcfg : t'.cfg = s.cfg := (memWrite_sameSetting hwrite).cfg
  have hread (hplace : place = .cpuLocal ∨ (place = .ram ∧ s.isolated = false)) :
      memRead ea .word t' = .ok (s.getReg rt, t') := by
    have hstorage : place.isStorage = true := by rcases hplace with h | ⟨h, -⟩ <;> rw [h] <;> rfl
    refine memRead_of_stored (hcfg ▸ hm) ha (by rwa [hcfg]) ?_
    rw [hcfg]
    unfold WriteDoes at hdoes
    rcases hplace with h | ⟨h, hstored⟩
    · simp only [show placeOf s.cfg (translate s.cfg ea) = .cpuLocal from h] at hdoes
      exact hdoes.1
    · simp only [show placeOf s.cfg (translate s.cfg ea) = .ram from h, hstored] at hdoes
      exact hdoes.1
  refine ⟨fun hplace => ?load, fun hplace hstored => ?fetch, fun hplace => memWrite_memRead_ram hm hw ha hplace⟩
  case load =>
    apply writesReg_setReg
    have hea : effAddr (t'.getReg rs) imm = ea := by rw [getReg_congr (memWrite_registers hwrite).1]; rfl
    show loadReg .word id rq (effAddr (t'.getReg rs) imm) t' = _
    rw [hea]
    exact loadWith_aligned ha (hread hplace)
  case fetch =>
    have hnotLocal : placeOf t'.cfg (translate t'.cfg ea) ≠ .cpuLocal := by
      rw [hcfg, show placeOf s.cfg (translate s.cfg ea) = .ram from hplace]
      nofun
    rw [fetch_eq_memRead hnotLocal]
    exact hread (.inr ⟨hplace, hstored⟩)

/-! ## Who writes the GTE bank and memory (R420) -/

theorem Effect.gte_of_not_writesGte {i : Instr} {s t : State} (e : Effect i s t) (hgte : i.writesGte = false) :
    t.gte = s.gte := by
  cases e with
  | loadsGte gte | writesGteD gte | writesGteC gte => exact absurd (hgte.symm.trans gte) Bool.false_ne_true
  | runsCommand cmd => simp [Instr.writesGte, cmd] at hgte
  | loads _ read => simpa using memRead_gte read
  | stores _ write => exact memWrite_gte write
  | merges _ read write => exact (memWrite_gte write).trans (memRead_gte read)
  | _ => simp

section
variable {s t : State} {ea v p : Word} {n : Width}

theorem toNat_alignedWord (a : Word) : (alignedWord a).toNat = a.toNat / 4 * 4 := by
  have hdiv : (alignedWord a).toNat / 2 ^ 2 = a.toNat / 2 ^ 2 := by
    have hmask : (0xFFFFFFFC : Word).toNat / 2 ^ 2 = 2 ^ 30 - 1 := by decide
    rw [alignedWord, BitVec.toNat_and, Nat.and_div_two_pow, hmask, Nat.and_two_pow_sub_one_eq_mod]
    exact Nat.mod_eq_of_lt (by omega)
  have haligned := alignedWord_aligned a
  omega

/-- Translation keeps bits 1:0, and the segment is bits 31:29. -/
theorem translate_alignedWord (cfg : Config) (a : Word) :
    translate cfg (alignedWord a) = alignedWord (translate cfg a) := by
  have hsegment : (alignedWord a).extractLsb' 29 3 = a.extractLsb' 29 3 := by
    rw [alignedWord, BitVec.extractLsb'_and]
    exact BitVec.and_allOnes
  rw [translate, hsegment, translate, alignedWord, alignedWord]
  ac_rfl

/-- What a write does is within the bytes it addresses. -/
theorem WriteDoes.memoryKeptOutside (h : WriteDoes n ea v s t) : memoryKeptOutside (translate s.cfg ea) n s t := by
  unfold WriteDoes at h
  dsimp only at h
  split at h
  case h_1 => exact h.2.1
  case h_2 =>
    split at h
    · exact fun a _ => h.1 a
    · exact h.2.1
  case h_4 => split at h <;> exact fun a _ => h.1 a
  all_goals exact fun a _ => h.1 a

/-- The bytes of an aligned access are bytes of its word. -/
theorem memoryKeptOutside_word (ha : p.toNat % n.bytes = 0) (h : memoryKeptOutside p n s t) :
    memoryKeptOutside (alignedWord p) .word s t := by
  intro a hout
  have hend := aligned_end ha
  rw [toNat_alignedWord] at hout
  have hbytes : Width.word.bytes = 4 := rfl
  exact h a (by omega)

theorem memoryKeptOutside_of_memWrite (hm : s.cfg.mapOk) (hw : s.memoriesWf) (ha : ea.toNat % n.bytes = 0)
    (h : memWrite ea n (v &&& n.mask) s = .ok t) :
    memoryKeptOutside (translate s.cfg (alignedWord ea)) .word s t := by
  obtain ⟨t', hwrite, hdoes⟩ := memWrite_does v hm hw ha
  obtain rfl : t' = t := Except.ok.inj (hwrite.symm.trans h)
  rw [translate_alignedWord]
  exact memoryKeptOutside_word (translate_aligned _ _ _ ha) hdoes.memoryKeptOutside

theorem memoryKeptOutside_of_storeWith (hm : s.cfg.mapOk) (hw : s.memoriesWf) (h : storeWith n ea v s = .next t) :
    memoryKeptOutside (translate s.cfg (alignedWord ea)) .word s t := by
  obtain ⟨-, rfl⟩ | ⟨hmis, hwrite⟩ := storeWith_next h
  · exact fun a _ => peek_congr (by simp) (by simp) (by simp) (by simp) (by simp) a
  · exact memoryKeptOutside_of_memWrite hm hw (by simpa [misaligned] using hmis) hwrite

theorem memoryKeptOutside_of_storeUnaligned {rt : Reg} {merge : Word → Word → Word → Word} (hm : s.cfg.mapOk)
    (hw : s.memoriesWf) (h : storeUnaligned ea rt merge s = .next t) :
    memoryKeptOutside (translate s.cfg (alignedWord ea)) .word s t := by
  have haligned : (alignedWord ea).toNat % Width.word.bytes = 0 := alignedWord_aligned ea
  have hself : alignedWord (alignedWord ea) = alignedWord ea := by
    rw [alignedWord, alignedWord, BitVec.and_assoc, BitVec.and_self]
  obtain ⟨-, hwrite⟩ | ⟨-, hpartial⟩ := storeUnaligned_next h
  · rw [← and_wordMask (s.getReg rt)] at hwrite
    have hkept := memoryKeptOutside_of_memWrite hm hw haligned hwrite
    rwa [hself] at hkept
  · obtain ⟨-, m, u, hread, hwrite⟩ := storePartial_next hpartial
    have hcfg : u.cfg = s.cfg := (memRead_sameSetting hread).cfg
    rw [← and_wordMask (merge ea (s.getReg rt) m)] at hwrite
    have hkept := memoryKeptOutside_of_memWrite (hcfg ▸ hm) (memRead_memoriesWf hread hw) haligned hwrite
    rw [hself, hcfg] at hkept
    exact fun a hout => (hkept a hout).trans (memRead_memoryKept hread a)

end

/-- Settles O35: only the effects named for it write the bank, and a store writes one aligned access. -/
theorem bankAndMemoryWriters : Obligations.BankAndMemoryWriters := by
  intro i s t hm hw hexec
  have effect := exec_effect hexec
  refine ⟨fun hgte => ?bank, fun hstore => ?others, fun rt rs imm hi => ?stores⟩
  case bank =>
    by_contra h
    exact hgte (effect.gte_of_not_writesGte (by simpa using h))
  case others =>
    obtain ⟨hram, hscratch, hcache⟩ := effect.memories_of_not_store hstore
    exact ⟨memoryKept_of effect.sameSetting.cfg hram effect.sameSetting.rom hscratch hcache, hram, hscratch, hcache⟩
  case stores =>
    simp only [List.mem_cons, List.not_mem_nil, or_false] at hi
    obtain rfl | rfl | rfl | rfl | rfl | rfl := hi
    · exact memoryKeptOutside_of_storeWith hm hw hexec
    · exact memoryKeptOutside_of_storeWith hm hw hexec
    · exact memoryKeptOutside_of_storeWith hm hw hexec
    · exact memoryKeptOutside_of_storeUnaligned hm hw hexec
    · exact memoryKeptOutside_of_storeUnaligned hm hw hexec
    · exact memoryKeptOutside_of_storeWith hm hw hexec

end Sys2Proof.Machine
end

section
/-! Two runs compared: a data access reads of the parameters the map alone and of COP0 Status.IsC alone,
so two states that differ in the other parameters or in the mode bits access memory alike (R52, R350). -/

namespace Sys2Proof.Machine

/-! ## States that access memory alike -/

/-- The parameters a data access reads. -/
structure SameMap (cfg cfg' : Config) : Prop where
  segMask : cfg'.segMask = cfg.segMask
  busRanges : cfg'.busRanges = cfg.busRanges
  scratchBase : cfg'.scratchBase = cfg.scratchBase
  scratchSize : cfg'.scratchSize = cfg.scratchSize
  cacheCtrlAddr : cfg'.cacheCtrlAddr = cfg.cacheCtrlAddr

/-- The state with other parameters and other COP0 registers. -/
def State.recast (s : State) (cfg : Config) (cop0 : Vector Word 32) : State := { s with cfg := cfg, cop0 := cop0 }

section
variable {s : State} {cfg : Config} {cop0 : Vector Word 32} {ea v p : Word} {n : Width}

@[simp] theorem recast_cfg (s : State) : (s.recast cfg cop0).cfg = cfg := rfl

theorem SameMap.translate (h : SameMap s.cfg cfg) : translate cfg ea = translate s.cfg ea := by
  rw [Machine.translate, Machine.translate, h.segMask]

theorem SameMap.inScratch (h : SameMap s.cfg cfg) : inScratch cfg p = inScratch s.cfg p := by
  rw [Machine.inScratch, Machine.inScratch, h.scratchBase, h.scratchSize]

theorem SameMap.inCacheCtrl (h : SameMap s.cfg cfg) : inCacheCtrl cfg p = inCacheCtrl s.cfg p := by
  rw [Machine.inCacheCtrl, Machine.inCacheCtrl, h.cacheCtrlAddr]

theorem SameMap.rangeAt (h : SameMap s.cfg cfg) : rangeAt cfg p = rangeAt s.cfg p := by
  rw [Machine.rangeAt, Machine.rangeAt, h.busRanges]

theorem SameMap.reachesDevice (h : SameMap s.cfg cfg) :
    reachesDevice (s.recast cfg cop0) ea = reachesDevice s ea := by
  simp only [Machine.reachesDevice, State.recast, h.translate, h.inScratch, h.inCacheCtrl, h.rangeAt]

theorem busRead_recast (h : SameMap s.cfg cfg) :
    busRead p n (s.recast cfg cop0) = (busRead p n s).map fun r => (r.1, r.2.recast cfg cop0) := by
  simp only [busRead, recast_cfg, h.rangeAt]
  cases Machine.rangeAt s.cfg p with
  | none => rfl
  | some r =>
    dsimp only
    split_ifs
    · rfl
    · cases r.device <;> rfl

theorem busWrite_recast (h : SameMap s.cfg cfg) :
    busWrite p n v (s.recast cfg cop0) = (busWrite p n v s).map fun t => t.recast cfg cop0 := by
  simp only [busWrite, recast_cfg, h.rangeAt]
  cases Machine.rangeAt s.cfg p with
  | none => rfl
  | some r =>
    dsimp only
    split_ifs
    · rfl
    · cases r.device <;> rfl

theorem memRead_recast (h : SameMap s.cfg cfg) :
    memRead ea n (s.recast cfg cop0) = (memRead ea n s).map fun r => (r.1, r.2.recast cfg cop0) := by
  simp only [memRead, scratchRead, cacheCtrlRead, recast_cfg, h.translate, h.inScratch, h.inCacheCtrl, h.scratchBase,
    h.scratchSize, h.cacheCtrlAddr, busRead_recast h]
  split_ifs <;> rfl

theorem memWrite_recast (h : SameMap s.cfg cfg) (hisolated : (s.recast cfg cop0).isolated = s.isolated) :
    memWrite ea n v (s.recast cfg cop0) = (memWrite ea n v s).map fun t => t.recast cfg cop0 := by
  simp only [memWrite, scratchWrite, cacheCtrlWrite, recast_cfg, h.translate, h.inScratch, h.inCacheCtrl, h.scratchBase,
    h.scratchSize, h.cacheCtrlAddr, busWrite_recast h, hisolated]
  split_ifs <;> rfl

end

/-! ## The two unaligned modes (R350-R352) -/

/-- The state with the other unaligned mode. -/
def State.inMode (m : UnalignedMode) (s : State) : State := { s with cfg := { s.cfg with unalignedMode := m } }

section
variable {s t u : State} {ea w : Word} {n : Width} {rt : Reg} {merge : Word → Word → Word → Word}

theorem inMode_setReg (m : UnalignedMode) (r : Reg) (v : Word) :
    (s.inMode m).setReg r v = (s.setReg r v).inMode m := by
  unfold State.setReg State.inMode
  split <;> rfl

theorem sameMap_inMode (s : State) (m : UnalignedMode) : SameMap s.cfg (s.inMode m).cfg := ⟨rfl, rfl, rfl, rfl, rfl⟩

/-- A state that kept the parameters and COP0 is recast to the other mode as `s` is. -/
theorem recast_eq_inMode {m : UnalignedMode} (hcfg : u.cfg = s.cfg) (hcop0 : u.cop0 = s.cop0) :
    u.recast (s.inMode m).cfg s.cop0 = u.inMode m := by
  rw [State.inMode, State.inMode, State.recast, hcfg, ← hcop0]

theorem memRead_inMode (m : UnalignedMode) (h : memRead ea n s = .ok (w, u)) :
    memRead ea n (s.inMode m) = .ok (w, u.inMode m) := by
  have hrecast := memRead_recast (ea := ea) (n := n) (cop0 := s.cop0) (sameMap_inMode s m)
  rw [h] at hrecast
  rw [← recast_eq_inMode (memRead_sameSetting h).cfg (memRead_cop0 h)]
  exact hrecast

theorem memRead_inMode_error {e : Refusal} (m : UnalignedMode) (h : memRead ea n s = .error e) :
    memRead ea n (s.inMode m) = .error e := by
  have hrecast := memRead_recast (ea := ea) (n := n) (cop0 := s.cop0) (sameMap_inMode s m)
  rwa [h] at hrecast

theorem memWrite_inMode (m : UnalignedMode) (h : memWrite ea n w s = .ok u) :
    memWrite ea n w (s.inMode m) = .ok (u.inMode m) := by
  have hrecast := memWrite_recast (ea := ea) (n := n) (v := w) (cop0 := s.cop0) (sameMap_inMode s m) rfl
  rw [h] at hrecast
  rw [← recast_eq_inMode (memWrite_sameSetting h).cfg (memWrite_cop0 h)]
  exact hrecast

theorem memWrite_inMode_error {e : Refusal} (m : UnalignedMode) (h : memWrite ea n w s = .error e) :
    memWrite ea n w (s.inMode m) = .error e := by
  have hrecast := memWrite_recast (ea := ea) (n := n) (v := w) (cop0 := s.cop0) (sameMap_inMode s m) rfl
  rwa [h] at hrecast

/-- A load whose merge takes the whole word read. -/
theorem loadUnaligned_modesAgree (hmerge : ∀ r w, merge ea r w = w) :
    loadUnaligned ea rt merge (s.inMode .exact) =
      mapNext (State.inMode .exact) (loadUnaligned ea rt merge (s.inMode .approx)) := by
  cases h : memRead (alignedWord ea) .word s with
  | error e =>
    rw [loadUnaligned_error (memRead_inMode_error _ h), loadUnaligned_error (memRead_inMode_error _ h), mapNext]
  | ok r =>
    obtain ⟨w, u⟩ := r
    rw [loadUnaligned_exact rfl (memRead_inMode _ h), loadUnaligned_approx rfl (memRead_inMode _ h), mapNext, hmerge,
      inMode_setReg, inMode_setReg]
    rfl

/-- A store whose merge takes the whole register, where the read of the word changes nothing. -/
theorem storeUnaligned_modesAgree (hm : s.cfg.mapOk)
    (hplace : (placeOf s.cfg (translate s.cfg (alignedWord ea))).isStorage = true) (hmerge : ∀ r m, merge ea r m = r) :
    storeUnaligned ea rt merge (s.inMode .exact) =
      mapNext (State.inMode .exact) (storeUnaligned ea rt merge (s.inMode .approx)) := by
  obtain ⟨m, hread, -⟩ := memRead_of_isStorage (n := .word) hm (alignedWord_aligned ea) hplace
  have hreadExact := memRead_inMode .exact hread
  have hdevice : reachesDevice (s.inMode .exact) (alignedWord ea) = false :=
    reachesDevice_eq_false_of_isStorage hplace
  cases h : memWrite (alignedWord ea) .word (s.getReg rt) s with
  | error e =>
    rw [storeUnaligned_approx_error (s := s.inMode .approx) rfl (memWrite_inMode_error _ h), mapNext,
      storeUnaligned_exact_writeError rfl hdevice hreadExact (by rw [hmerge]; exact memWrite_inMode_error _ h)]
  | ok t =>
    rw [storeUnaligned_approx (s := s.inMode .approx) rfl (memWrite_inMode _ h), mapNext,
      storeUnaligned_exact rfl hdevice hreadExact (by rw [hmerge]; exact memWrite_inMode _ h)]
    rfl

end

/-- Settles O24: with these ea[1:0] the masks of the merges keep nothing of the other operand. -/
theorem unalignedModesAgree : Obligations.UnalignedModesAgree := by
  intro s rt rs imm hm inMode agree ea p
  refine ⟨fun hk => ⟨?_, fun hplace => ?_⟩, fun hk => ⟨?_, fun hplace => ?_⟩⟩
  · exact loadUnaligned_modesAgree (ea := ea) fun r w => by simp [mergeLwl, laneShift, hk]
  · exact storeUnaligned_modesAgree (ea := ea) hm hplace fun r m => by simp [mergeSwl, laneShift, hk]
  · exact loadUnaligned_modesAgree (ea := ea) fun r w => by simp [mergeLwr, laneShift, hk]
  · exact storeUnaligned_modesAgree (ea := ea) hm hplace fun r m => by simp [mergeSwr, laneShift, hk]

end Sys2Proof.Machine
end

section
/-! The mode bits KUc, KUp and KUo of Status (44_system.md R52): every shape of an instruction does the same with them
cleared, up to those bits. -/

namespace Sys2Proof.Machine

/-! ## Clearing the mode bits -/

/-- The COP0 registers with the mode bits of Status cleared. -/
def forgetCop0 (cop0 : Vector Word 32) : Vector Word 32 := cop0.set 12 (cop0[12] &&& ~~~(0x2A : Word))

section
variable {s t u : State}

theorem forgetMode_eq_recast (s : State) : s.forgetMode = s.recast s.cfg (forgetCop0 s.cop0) := rfl

theorem forgetMode_getCop0 (s : State) (q : Reg) :
    s.forgetMode.getCop0 q = if q = 12 then s.getCop0 12 &&& ~~~(0x2A : Word) else s.getCop0 q :=
  getCop0_setCop0 ..

/-- COP0 registers that differ in the mode bits alone. -/
theorem forgetCop0_congr (h12 : s.getCop0 12 &&& ~~~(0x2A : Word) = t.getCop0 12 &&& ~~~(0x2A : Word))
    (h : ∀ q : Reg, q ≠ 12 → s.getCop0 q = t.getCop0 q) : forgetCop0 s.cop0 = forgetCop0 t.cop0 := by
  refine Vector.ext fun q hq => ?_
  have hs := forgetMode_getCop0 s ⟨q, hq⟩
  have ht := forgetMode_getCop0 t ⟨q, hq⟩
  show s.forgetMode.getCop0 ⟨q, hq⟩ = t.forgetMode.getCop0 ⟨q, hq⟩
  rw [hs, ht]
  split_ifs with hne
  · exact h12
  · exact h _ hne

/-- States that differ in the mode bits alone. -/
theorem forgetMode_congr (h12 : s.getCop0 12 &&& ~~~(0x2A : Word) = t.getCop0 12 &&& ~~~(0x2A : Word))
    (h : ∀ q : Reg, q ≠ 12 → s.getCop0 q = t.getCop0 q) (hrest : { s with cop0 := t.cop0 } = t) :
    s.forgetMode = t.forgetMode := by
  calc s.forgetMode
    _ = s.recast s.cfg (forgetCop0 t.cop0) := by rw [forgetMode_eq_recast, forgetCop0_congr h12 h]
    _ = { s with cop0 := t.cop0 }.forgetMode := rfl
    _ = t.forgetMode := by rw [hrest]

theorem forgetMode_idem (s : State) : s.forgetMode.forgetMode = s.forgetMode := by
  refine forgetMode_congr ?_ (fun q hq => ?_) rfl
  · rw [forgetMode_getCop0, if_pos rfl, BitVec.and_assoc, BitVec.and_self]
  · rw [forgetMode_getCop0, if_neg hq]

theorem getLsbD_forgetMask {k : Nat} (hk : k < 32) : (~~~(0x2A : Word)).getLsbD k = decide (k ∉ [1, 3, 5]) := by
  revert k
  decide

theorem forgetMode_isolated (s : State) : s.forgetMode.isolated = s.isolated := by
  rw [State.isolated, State.status, forgetMode_getCop0, if_pos rfl, BitVec.getLsbD_and, getLsbD_forgetMask (by decide)]
  simp [State.isolated, State.status]

theorem forgetMode_bev (s : State) : s.forgetMode.bev = s.bev := by
  rw [State.bev, State.status, forgetMode_getCop0, if_pos rfl, BitVec.getLsbD_and, getLsbD_forgetMask (by decide)]
  simp [State.bev, State.status]

/-- What is pushed of the mode bits are mode bits. -/
theorem statusPush_forget (v : Word) :
    statusPush (v &&& ~~~(0x2A : Word)) &&& ~~~(0x2A : Word) = statusPush v &&& ~~~(0x2A : Word) := by
  apply BitVec.eq_of_getLsbD_eq
  intro k hk
  rw [BitVec.getLsbD_and, BitVec.getLsbD_and, getLsbD_statusPush _ hk, getLsbD_statusPush _ hk]
  by_cases h : k < 6
  · interval_cases k <;> simp
  · rw [if_neg h, if_neg h, BitVec.getLsbD_and, Bool.and_assoc, Bool.and_self]

theorem statusPop_forget (v : Word) :
    statusPop (v &&& ~~~(0x2A : Word)) &&& ~~~(0x2A : Word) = statusPop v &&& ~~~(0x2A : Word) := by
  apply BitVec.eq_of_getLsbD_eq
  intro k hk
  rw [BitVec.getLsbD_and, BitVec.getLsbD_and, getLsbD_statusPop _ hk, getLsbD_statusPop _ hk]
  by_cases h : k < 4
  · interval_cases k <;> simp
  · rw [if_neg h, if_neg h, BitVec.getLsbD_and, Bool.and_assoc, Bool.and_self]

theorem setCop0_forget (n : Reg) (v : Word) : (s.forgetMode.setCop0 n v).forgetMode = (s.setCop0 n v).forgetMode := by
  refine forgetMode_congr ?_ (fun q hq => ?_) rfl
  · rw [getCop0_setCop0, getCop0_setCop0]
    split_ifs
    · rfl
    · rw [forgetMode_getCop0, if_pos rfl, BitVec.and_assoc, BitVec.and_self]
  · rw [getCop0_setCop0, getCop0_setCop0, forgetMode_getCop0, if_neg hq]

theorem leave_forget : s.forgetMode.leave.forgetMode = s.leave.forgetMode := by
  refine forgetMode_congr ?_ (fun q hq => ?_) rfl
  · rw [State.leave, State.leave, getCop0_setCop0_self, getCop0_setCop0_self, State.status, forgetMode_getCop0,
      if_pos rfl]
    exact statusPop_forget _
  · rw [State.leave, State.leave, getCop0_setCop0_ne _ _ hq, getCop0_setCop0_ne _ _ hq, forgetMode_getCop0, if_neg hq]

theorem enter_forget (c : ExcCode) (a : Option Word) :
    (s.forgetMode.enter c a).forgetMode = (s.enter c a).forgetMode := by
  refine forgetMode_congr ?_ (fun q hq => ?_) ?_
  · rw [enter_getCop0, enter_getCop0, if_pos rfl, if_pos rfl, State.status, forgetMode_getCop0, if_pos rfl]
    exact statusPush_forget _
  · have hcause : s.forgetMode.cause = s.cause := (forgetMode_getCop0 s 13).trans (if_neg (by decide))
    have hbadVAddr : s.forgetMode.getCop0 8 = s.getCop0 8 := (forgetMode_getCop0 s 8).trans (if_neg (by decide))
    rw [enter_getCop0, enter_getCop0, if_neg hq, if_neg hq, hcause, hbadVAddr, forgetMode_getCop0, if_neg hq]
    rfl
  · simp only [State.enter, forgetMode_bev]
    cases a <;> rfl

end

/-! ## Data accesses -/

section
variable {s t u : State} {ea v : Word} {n : Width} {e : Refusal}

theorem SameMap.refl (cfg : Config) : SameMap cfg cfg := ⟨rfl, rfl, rfl, rfl, rfl⟩

theorem recast_eq_forgetMode (hcfg : u.cfg = s.cfg) (hcop0 : u.cop0 = s.cop0) :
    u.recast s.cfg (forgetCop0 s.cop0) = u.forgetMode := by
  rw [forgetMode_eq_recast, hcfg, hcop0]

theorem memRead_forget (h : memRead ea n s = .ok (v, u)) : memRead ea n s.forgetMode = .ok (v, u.forgetMode) := by
  rw [forgetMode_eq_recast s, memRead_recast (.refl _), h, ← recast_eq_forgetMode (memRead_sameSetting h).cfg
    (memRead_cop0 h)]
  rfl

theorem memRead_forget_error (h : memRead ea n s = .error e) : memRead ea n s.forgetMode = .error e := by
  rw [forgetMode_eq_recast s, memRead_recast (.refl _), h]
  rfl

theorem memWrite_forget (h : memWrite ea n v s = .ok u) : memWrite ea n v s.forgetMode = .ok u.forgetMode := by
  rw [forgetMode_eq_recast s, memWrite_recast (cop0 := forgetCop0 s.cop0) (.refl _) (forgetMode_isolated s), h,
    ← recast_eq_forgetMode (memWrite_sameSetting h).cfg (memWrite_cop0 h)]
  rfl

theorem memWrite_forget_error (h : memWrite ea n v s = .error e) : memWrite ea n v s.forgetMode = .error e := by
  rw [forgetMode_eq_recast s, memWrite_recast (cop0 := forgetCop0 s.cop0) (.refl _) (forgetMode_isolated s), h]
  rfl

end

/-! ## The shapes of an instruction -/

/-- The outcomes agree up to the mode bits. -/
def AgreeUpToMode (r r' : Result) : Prop := mapNext State.forgetMode r = mapNext State.forgetMode r'

section
variable {s t u : State} {ea v : Word} {n : Width} {rt : Reg} {merge : Word → Word → Word → Word}

theorem AgreeUpToMode.next (h : u.forgetMode = t.forgetMode) : AgreeUpToMode (.next u) (.next t) :=
  congrArg Host.Outcome.next h

theorem AgreeUpToMode.commutes (h : u = t.forgetMode) : AgreeUpToMode (.next u) (.next t) :=
  .next (h ▸ forgetMode_idem t)

theorem setReg_forget (r : Reg) (v : Word) : s.forgetMode.setReg r v = (s.setReg r v).forgetMode := by
  unfold State.setReg
  split <;> rfl

theorem branchIf_forget (b : Bool) (imm : BitVec 16) : s.forgetMode.branchIf b imm = (s.branchIf b imm).forgetMode := by
  cases b <;> rfl

theorem AgreeUpToMode.setReg (r : Reg) (v : Word) :
    AgreeUpToMode (.next (s.forgetMode.setReg r v)) (.next (s.setReg r v)) :=
  .commutes (setReg_forget r v)

theorem AgreeUpToMode.raise (c : ExcCode) (a : Option Word) : AgreeUpToMode (raise c a s.forgetMode) (raise c a s) :=
  .next (enter_forget c a)

theorem AgreeUpToMode.writeRegOrOverflow (r : Reg) (v : Word) (trap : Bool) :
    AgreeUpToMode (writeRegOrOverflow r v trap s.forgetMode) (writeRegOrOverflow r v trap s) := by
  cases trap with
  | true => exact .raise .ov none
  | false => exact .setReg r v

theorem AgreeUpToMode.loadWith {deliver : Word → State → State}
    (hdeliver : ∀ v u, deliver v u.forgetMode = (deliver v u).forgetMode) :
    AgreeUpToMode (loadWith n ea deliver s.forgetMode) (loadWith n ea deliver s) := by
  by_cases ha : ea.toNat % n.bytes = 0
  · cases h : memRead ea n s with
    | error e => rw [loadWith_error ha h, loadWith_error ha (memRead_forget_error h), AgreeUpToMode]
    | ok r =>
      rw [loadWith_aligned ha h, loadWith_aligned ha (memRead_forget h)]
      exact .commutes (hdeliver _ _)
  · rw [loadWith_misaligned ha, loadWith_misaligned ha]
    exact .next (enter_forget _ _)

theorem AgreeUpToMode.storeWith :
    AgreeUpToMode (storeWith n ea v s.forgetMode) (storeWith n ea v s) := by
  by_cases ha : ea.toNat % n.bytes = 0
  · cases h : memWrite ea n (v &&& n.mask) s with
    | error e => rw [storeWith_error ha h, storeWith_error ha (memWrite_forget_error h), AgreeUpToMode]
    | ok t =>
      rw [storeWith_aligned ha h, storeWith_aligned ha (memWrite_forget h)]
      exact .commutes rfl
  · rw [storeWith_misaligned ha, storeWith_misaligned ha]
    exact .next (enter_forget _ _)

theorem AgreeUpToMode.loadUnaligned :
    AgreeUpToMode (loadUnaligned ea rt merge s.forgetMode) (loadUnaligned ea rt merge s) := by
  cases h : memRead (alignedWord ea) .word s with
  | error e => rw [loadUnaligned_error h, loadUnaligned_error (memRead_forget_error h), AgreeUpToMode]
  | ok r =>
    cases hmode : s.cfg.unalignedMode with
    | approx =>
      rw [loadUnaligned_approx hmode h, loadUnaligned_approx (s := s.forgetMode) hmode (memRead_forget h)]
      exact .setReg _ _
    | exact =>
      rw [loadUnaligned_exact hmode h, loadUnaligned_exact (s := s.forgetMode) hmode (memRead_forget h)]
      exact .setReg _ _

theorem AgreeUpToMode.storeUnaligned :
    AgreeUpToMode (storeUnaligned ea rt merge s.forgetMode) (storeUnaligned ea rt merge s) := by
  cases hmode : s.cfg.unalignedMode with
  | approx =>
    cases h : memWrite (alignedWord ea) .word (s.getReg rt) s with
    | error e =>
      rw [storeUnaligned_approx_error hmode h,
        storeUnaligned_approx_error (s := s.forgetMode) hmode (memWrite_forget_error h),
        AgreeUpToMode]
    | ok t =>
      rw [storeUnaligned_approx hmode h, storeUnaligned_approx (s := s.forgetMode) hmode (memWrite_forget h)]
      exact .commutes rfl
  | exact =>
    cases hdevice : reachesDevice s (alignedWord ea) with
    | true =>
      rw [storeUnaligned_device hmode hdevice, storeUnaligned_device (s := s.forgetMode) hmode hdevice, AgreeUpToMode]
    | false =>
      cases hread : memRead (alignedWord ea) .word s with
      | error e =>
        rw [storeUnaligned_exact_error hmode hdevice hread,
          storeUnaligned_exact_error (s := s.forgetMode) hmode hdevice (memRead_forget_error hread), AgreeUpToMode]
      | ok r =>
        cases h : memWrite (alignedWord ea) .word (merge ea (s.getReg rt) r.1) r.2 with
        | error e =>
          rw [storeUnaligned_exact_writeError hmode hdevice hread h,
            storeUnaligned_exact_writeError (s := s.forgetMode) hmode hdevice (memRead_forget hread)
              (memWrite_forget_error h),
            AgreeUpToMode]
        | ok t =>
          rw [storeUnaligned_exact hmode hdevice hread h,
            storeUnaligned_exact (s := s.forgetMode) hmode hdevice (memRead_forget hread) (memWrite_forget h)]
          exact .commutes rfl

theorem AgreeUpToMode.gteCommand (c : GteCmd) (body : Gte → Gte) :
    AgreeUpToMode (gteCommand c body s.forgetMode) (gteCommand c body s) := by
  by_cases hc : c ∈ s.cfg.gteImplemented
  · rw [gteCommand_implemented hc, gteCommand_implemented (s := s.forgetMode) hc]
    exact .commutes rfl
  · rw [gteCommand_unimplemented hc, gteCommand_unimplemented (s := s.forgetMode) hc]
    exact .commutes rfl

end

/-! ## Every instruction -/

/-- Settles O36: every shape reads and keeps the other bits of Status alone, and what an entry or rfe takes from the
mode bits are mode bits. -/
theorem noInstructionDependsOnMode : Obligations.NoInstructionDependsOnMode := by
  intro i s hstatus
  show AgreeUpToMode (exec i s.forgetMode) (exec i s)
  cases i with
  | add | sub | addi => exact .writeRegOrOverflow ..
  | lb | lbu | lh | lhu | lw => exact .loadWith fun _ _ => setReg_forget ..
  | lwc2 => exact .loadWith fun _ _ => rfl
  | lwl | lwr => exact .loadUnaligned
  | sb | sh | sw | swc2 => exact .storeWith
  | swl | swr => exact .storeUnaligned
  | syscall | break_ => exact .raise ..
  | addu | subu | and | or | xor | nor | slt | sltu
  | sll | srl | sra | sllv | srlv | srav
  | addiu | slti | sltiu | andi | ori | xori | lui
  | mfhi | mflo | mfc2 | cfc2 => exact .setReg ..
  | mfc0 rt rd =>
    have hrd : rd ≠ 12 := fun h => hstatus rt (h ▸ rfl)
    have hread : s.forgetMode.getCop0 rd = s.getCop0 rd := (forgetMode_getCop0 s rd).trans (if_neg hrd)
    show AgreeUpToMode (.next (s.forgetMode.setReg rt (s.forgetMode.getCop0 rd))) (.next (s.setReg rt (s.getCop0 rd)))
    rw [hread]
    exact .setReg ..
  | mtc0 => exact .next (setCop0_forget ..)
  | rfe => exact .next leave_forget
  | jal | jalr => exact .setReg (s := s.takeBranch _) ..
  | beq | bne | blez | bgtz | bltz | bgez => exact .commutes (branchIf_forget ..)
  | bltzal | bgezal => exact .commutes (by rw [branchIf_forget, setReg_forget]; rfl)
  | gteRtps | gteNclip | gteOp | gteDpcs | gteIntpl | gteMvmva | gteNcds | gteCdp | gteNcdt | gteNccs | gteCc
  | gteNcs | gteNct | gteSqr | gteDcpl | gteDpct | gteAvsz3 | gteAvsz4 | gteRtpt | gteGpf | gteGpl
  | gteNcct => exact .gteCommand ..
  | _ => exact .commutes rfl

end Sys2Proof.Machine
end

section
/-! Who writes COP0 (60_exceptions.md R561, 10_state.md R50, R53): the entry of an exception, mtc0 and rfe. -/

namespace Sys2Proof.Machine

section
variable {i : Instr} {s t : State}

/-- What an effect does to COP0. -/
theorem Effect.cop0_cases (e : Effect i s t) :
    (i.mayRaise = true ∧ ∃ c a, t = s.enter c a) ∨ (∃ rt n, i = .mtc0 rt n ∧ t = s.setCop0 n (s.getReg rt)) ∨
      (i = .rfe ∧ t = s.leave) ∨ t.cop0 = s.cop0 := by
  cases e with
  | raises may => exact .inl ⟨may, _, _, rfl⟩
  | writesCop0 is => exact .inr (.inl ⟨_, _, is, rfl⟩)
  | leaves is => exact .inr (.inr (.inl ⟨is, rfl⟩))
  | loads _ read | loadsGte _ read => exact .inr (.inr (.inr (by simpa using memRead_cop0 read)))
  | stores _ write => exact .inr (.inr (.inr (memWrite_cop0 write)))
  | merges _ read write => exact .inr (.inr (.inr ((memWrite_cop0 write).trans (memRead_cop0 read))))
  | _ => exact .inr (.inr (.inr (by simp)))

theorem getCop0_congr (h : t.cop0 = s.cop0) (n : Reg) : t.getCop0 n = s.getCop0 n := by simp only [State.getCop0, h]

end

/-- Settles O34: an effect that is no entry keeps pc, and mtc0 and rfe are the only others that reach COP0. -/
theorem exceptionSourcesAndCop0Writers : Obligations.ExceptionSourcesAndCop0Writers := by
  intro i s t hexec
  have effect := exec_effect hexec
  refine ⟨fun hraise => ⟨?pc, fun n hn => ?writers⟩, fun hraise => ?entry, fun hmtc0 => ?status⟩
  case pc =>
    obtain ⟨hmay, -⟩ | hsame := effect.raises_or_samePcAndHazards
    · exact absurd (hraise.symm.trans hmay) Bool.false_ne_true
    · exact hsame.pc
  case writers =>
    obtain ⟨hmay, -⟩ | ⟨rt, m, rfl, rfl⟩ | ⟨rfl, rfl⟩ | hcop0 := effect.cop0_cases
    · exact absurd (hraise.symm.trans hmay) Bool.false_ne_true
    · have hnm : n = m := by
        by_contra hne
        exact hn (getCop0_setCop0_ne _ _ hne)
      exact .inl ⟨rt, hnm ▸ rfl⟩
    · refine .inr ⟨rfl, ?_⟩
      by_contra hne
      exact hn (getCop0_setCop0_ne _ _ hne)
    · exact absurd (getCop0_congr hcop0 n) hn
  case entry =>
    obtain ⟨-, c, a, rfl⟩ | hsame := effect.raises_or_samePcAndHazards
    · exact .inr ⟨c, a, entered_enter s c a⟩
    · exact .inl hsame.pc
  case status =>
    obtain ⟨hmay, c, a, rfl⟩ | ⟨rt, m, rfl, rfl⟩ | ⟨rfl, rfl⟩ | hcop0 := effect.cop0_cases
    · have hstatus : (s.enter c a).getCop0 12 = statusPush (s.getCop0 12) := enter_status s c a
      rw [hstatus]
      exact ⟨extractLsb'_high_statusPush _, fun _ => hmay⟩
    · have hne : (12 : Reg) ≠ m := fun h => hmtc0 rt (h ▸ rfl)
      rw [getCop0_setCop0_ne _ _ hne]
      exact ⟨rfl, fun h => absurd rfl h⟩
    · have hstatus : s.leave.getCop0 12 = statusPop (s.getCop0 12) := leave_status s
      rw [hstatus, extractLsb'_high_statusPop _ (by decide) (by decide),
        extractLsb'_high_statusPop _ (by decide) (by decide)]
      exact ⟨rfl, fun h => absurd rfl h⟩
    · rw [getCop0_congr hcop0]
      exact ⟨rfl, fun h => absurd rfl h⟩

end Sys2Proof.Machine
end

section
/-! SEG_MASK and the default map (20_memory.md R101, R109, R131). -/

namespace Sys2Proof.Machine

/-! ## SEG_MASK (R101) -/

section
variable {cfg : Config} (a : Word)

theorem toNat_and_lowMask (n : Nat) (hn : n ≤ 32) : (a &&& BitVec.ofNat 32 (2 ^ n - 1)).toNat = a.toNat % 2 ^ n := by
  have hle : 2 ^ n ≤ 2 ^ 32 := Nat.pow_le_pow_right (by decide) hn
  have hpos : 0 < 2 ^ n := Nat.two_pow_pos n
  rw [BitVec.toNat_and, BitVec.toNat_ofNat, Nat.mod_eq_of_lt (by omega), Nat.and_two_pow_sub_one_eq_mod]

/-- The mask of each segment, the segment being bits 31:29. -/
theorem toNat_translate_default (h : cfg.segMask = defaultSegMask) :
    (translate cfg a).toNat = if a.toNat / 2 ^ 29 = 4 then a.toNat % 2 ^ 31
      else if a.toNat / 2 ^ 29 = 5 then a.toNat % 2 ^ 29 else a.toNat := by
  have hseg : (a.extractLsb' 29 3).toNat = a.toNat / 2 ^ 29 := by
    rw [BitVec.extractLsb'_toNat, Nat.shiftRight_eq_div_pow]
    omega
  have hsum := a.isLt
  have hmask := (a.extractLsb' 29 3).isLt
  rw [translate, h, ← hseg]
  generalize a.extractLsb' 29 3 = b at hseg hmask
  have hall : ∀ n : Fin 8, (defaultSegMask.get n) =
      BitVec.ofNat 32 (2 ^ (if n.val = 4 then 31 else if n.val = 5 then 29 else 32) - 1) := by decide
  rw [hall]
  simp only [BitVec.val_toFin]
  split_ifs with hkseg0 hkseg1
  · exact toNat_and_lowMask a 31 (by decide)
  · exact toNat_and_lowMask a 29 (by decide)
  · exact (toNat_and_lowMask a 32 (by decide)).trans (Nat.mod_eq_of_lt hsum)

end

/-! ## A map that keeps its ranges apart (R109) -/

section
variable {cfg : Config} {p : Word} {r : BusRange}

/-- The range that holds an address is the one found. -/
theorem rangeAt_of_mem (hm : cfg.mapOk) (hr : r ∈ cfg.busRanges) (hlow : r.base ≤ p.toNat)
    (hhigh : p.toNat < r.base + r.size) : rangeAt cfg p = some r := by
  obtain ⟨-, hpairwise, -⟩ := hm
  have hsome : (rangeAt cfg p).isSome := List.find?_isSome.2 ⟨r, hr, decide_eq_true ⟨hlow, hhigh⟩⟩
  obtain ⟨q, hq⟩ := Option.isSome_iff_exists.1 hsome
  obtain ⟨hqmem, hqlow, hqhigh⟩ := rangeAt_some hq
  have hsymm : Std.Symm fun r q : BusRange => apart r.base r.size q.base q.size := ⟨fun _ _ h => h.symm⟩
  by_cases hne : r = q
  · rw [hq, hne]
  · have hapart := hpairwise.forall hr hqmem hne
    omega

/-- The place of an address in a range is its device's. -/
theorem notLocal_of_mem (hm : cfg.mapOk) (hr : r ∈ cfg.busRanges) (hlow : r.base ≤ p.toNat)
    (hhigh : p.toNat < r.base + r.size) : inScratch cfg p = false ∧ inCacheCtrl cfg p = false := by
  obtain ⟨-, -, hscratch, hcache⟩ := hm.1 r hr
  exact ⟨decide_eq_false (by omega), decide_eq_false (by omega)⟩

end

/-- The place a bus range's device is. -/
def devicePlace : Device → Place
  | .ram => .ram
  | .rom => .rom
  | .peripheral d => .device d

theorem placeOf_of_mem {cfg : Config} {p : Word} {r : BusRange} (hm : cfg.mapOk) (hr : r ∈ cfg.busRanges)
    (hlow : r.base ≤ p.toNat) (hhigh : p.toNat < r.base + r.size) : placeOf cfg p = devicePlace r.device := by
  obtain ⟨hscratch, hcache⟩ := notLocal_of_mem hm hr hlow hhigh
  rw [placeOf_of_rangeAt hscratch hcache, rangeAt_of_mem hm hr hlow hhigh, Option.map_some]
  cases r.device <;> rfl

/-- No range holds an address exactly when it is outside the bounds of each. -/
theorem rangeAt_eq_none_iff {cfg : Config} {p : Word} :
    rangeAt cfg p = none ↔ ∀ r ∈ cfg.busRanges, ¬(r.base ≤ p.toNat ∧ p.toNat < r.base + r.size) := by
  simp only [rangeAt, List.find?_eq_none, rangeHolds, decide_eq_true_eq]

/-! ## The default map (R131) -/

section
variable {p : Word}

theorem mapOk_defaultConfig : defaultConfig.mapOk := invariantAtReset.2.1

theorem defaultRange {lo hi : Nat} {d : Device}
    (hr : (⟨lo, hi + 1 - lo, d⟩ : BusRange) ∈ defaultConfig.busRanges) (hp : lo ≤ p.toNat ∧ p.toNat ≤ hi) :
    rangeAt defaultConfig p = some ⟨lo, hi + 1 - lo, d⟩ ∧ placeOf defaultConfig p = devicePlace d := by
  obtain ⟨hlow, hhigh⟩ := hp
  have hbelow : p.toNat < lo + (hi + 1 - lo) := by omega
  exact ⟨rangeAt_of_mem mapOk_defaultConfig hr hlow hbelow, placeOf_of_mem mapOk_defaultConfig hr hlow hbelow⟩

theorem inScratch_default_iff :
    inScratch defaultConfig p = true ↔ 0x1F800000 ≤ p.toNat ∧ p.toNat ≤ 0x1F8003FF := by
  rw [inScratch, decide_eq_true_eq]
  exact and_congr_right' Nat.lt_succ_iff

theorem inCacheCtrl_default_iff :
    inCacheCtrl defaultConfig p = true ↔ 0xFFFE0130 ≤ p.toNat ∧ p.toNat ≤ 0xFFFE0133 := by
  rw [inCacheCtrl, decide_eq_true_eq]
  exact and_congr_right' Nat.lt_succ_iff

/-- The first and last address of each default range. -/
def defaultBounds : List (Nat × Nat) := defaultBusRanges.map fun r => (r.base, r.base + r.size - 1)

theorem rangeAt_default_eq_none_iff :
    rangeAt defaultConfig p = none ↔ ∀ b ∈ defaultBounds, ¬(b.1 ≤ p.toNat ∧ p.toNat ≤ b.2) := by
  have hsize : ∀ r ∈ defaultBusRanges, 0 < r.size := by decide
  rw [rangeAt_eq_none_iff, defaultBounds, List.forall_mem_map]
  refine forall₂_congr fun r hr => ?_
  have := hsize r hr
  omega

end

/-- Settles O17: the segment's mask as arithmetic on the address, and the ranges that keep apart, each found at
the addresses it holds. -/
theorem translationAndDefaultMap : Obligations.TranslationAndDefaultMap := by
  refine ⟨fun cfg a h => ?_, fun p => ?_, mapOk_defaultConfig, rfl, by decide, by decide, by decide, by decide,
    by decide, by decide⟩
  · have hvalue := toNat_translate_default a h
    have hagain := toNat_translate_default (translate cfg a) h
    have hsmall := a.isLt
    refine ⟨BitVec.eq_of_toNat_eq ?_, fun _ => BitVec.eq_of_toNat_eq ?_, fun _ _ => ?_, fun _ _ => ?_⟩ <;>
      split_ifs at * <;> omega
  · exact ⟨defaultRange (by decide), defaultRange (by decide), defaultRange (by decide), defaultRange (by decide),
      defaultRange (by decide), defaultRange (by decide), defaultRange (by decide), defaultRange (by decide),
      defaultRange (by decide), defaultRange (by decide), defaultRange (by decide), defaultRange (by decide),
      defaultRange (by decide), defaultRange (by decide), defaultRange (by decide), inScratch_default_iff,
      inCacheCtrl_default_iff,
      placeOf_eq_cpuLocal_iff.trans (or_congr inScratch_default_iff inCacheCtrl_default_iff),
      rangeAt_default_eq_none_iff⟩

end Sys2Proof.Machine
end

section
/-! The division of the GTE (46_gte_commands.md R485, R486). -/

namespace Sys2Proof.Machine

/-! ## The reciprocal table (R485) -/

/-- The table's formula on integers; the subtraction of naturals stops at 0, where `max` does. -/
theorem unr_eq_max (i : Nat) : (unr i : Int) = max 0 (((0x40000 / (i + 0x100) + 1) / 2 : Int) - 0x101) := by
  have hquotient : (0x40000 / (i + 0x100) : Int) = (0x40000 / (i + 0x100) : Nat) := by push_cast; rfl
  rw [hquotient]
  unfold unr
  omega

theorem unr_le (i : Nat) : unr i ≤ 0xFF := by
  have hquotient : 0x40000 / (i + 0x100) ≤ 0x400 := by
    rw [Nat.div_le_iff_le_mul_add_pred (by omega)]
    omega
  unfold unr
  omega

/-! ## The shift that normalises the divisor (R486) -/

/-- A divisor below 2^16, shifted until its bit 15 is set. -/
theorem normalised_range {sz : Nat} (hpos : 0 < sz) (hsz : sz < 2 ^ 16) :
    16 - bitLength sz ≤ 15 ∧ 0x8000 ≤ sz * 2 ^ (16 - bitLength sz) ∧ sz * 2 ^ (16 - bitLength sz) ≤ 0xFFFF := by
  have hlog : Nat.log2 sz < 16 := (Nat.log2_lt hpos.ne').2 hsz
  have hlow : 2 ^ Nat.log2 sz ≤ sz := Nat.log2_self_le hpos.ne'
  have hhigh : sz < 2 ^ (Nat.log2 sz + 1) := Nat.lt_log2_self
  rw [bitLength, if_neg hpos.ne']
  generalize Nat.log2 sz = k at *
  have hpow : 2 ^ k * 2 ^ (16 - (k + 1)) = 2 ^ 15 := by rw [← pow_add, show k + (16 - (k + 1)) = 15 by omega]
  have hpow' : 2 ^ (k + 1) * 2 ^ (16 - (k + 1)) = 2 ^ 16 := by rw [pow_succ, mul_right_comm, hpow]; rfl
  have hge := Nat.mul_le_mul_right (2 ^ (16 - (k + 1))) hlow
  have hlt := Nat.mul_lt_mul_of_pos_right hhigh (Nat.two_pow_pos (16 - (k + 1)))
  omega

/-! ## The quotient (R486) -/

/-- The two steps of the iteration, on naturals. -/
def quotient (h d u : Nat) : Nat :=
  min 0x1FFFF ((h * ((0x0000080 + (0x2000080 - d * u) / 256 * u) / 256) + 0x8000) / 65536)

theorem reciprocal_eq_quotient (h sz : Nat) :
    reciprocal h sz = quotient (h * 2 ^ (16 - bitLength sz)) (sz * 2 ^ (16 - bitLength sz))
      (unr ((sz * 2 ^ (16 - bitLength sz) - 0x7FC0) / 128) + 0x101) := by
  simp only [reciprocal, quotient, Nat.shiftLeft_eq, Nat.shiftRight_eq_div_pow]

theorem divide_val (h sz : Nat) : (divide h sz).val = if 2 * sz ≤ h then 0x1FFFF else (reciprocal h sz : Int) := by
  simp only [divide, divideOverflows, decide_eq_true_eq]

theorem divide_flag (h sz n : Nat) : (divide h sz).flag.getLsbD n = true ↔ n = 17 ∧ 2 * sz ≤ h := by
  rw [divide, divideOverflows, flagBit_getLsbD]
  simp only [Bool.and_eq_true, decide_eq_true_eq]
  omega

theorem divide_val_range (h sz : Nat) : 0 ≤ (divide h sz).val ∧ (divide h sz).val ≤ 0x1FFFF := by
  rw [divide_val, reciprocal_eq_quotient, quotient]
  split_ifs <;> omega

/-- The same on integers, where no subtraction stops at 0: the product of a normalised divisor and a table value is
at most 0xFFFF * 0x200. -/
theorem quotient_cast {h d u : Nat} (hd : d ≤ 0xFFFF) (hu : u ≤ 0x200) :
    0 ≤ (0x2000080 - d * u : Int) ∧
      (quotient h d u : Int) =
        min 0x1FFFF (((h : Int) * ((0x0000080 + (0x2000080 - d * u) / 256 * u) / 256) + 0x8000) / 65536) := by
  have hprod : d * u ≤ 0x2000080 := (Nat.mul_le_mul hd hu).trans (by decide)
  refine ⟨by exact_mod_cast Int.sub_nonneg.2 (Int.ofNat_le.2 hprod), ?_⟩
  rw [quotient]
  push_cast [Nat.cast_sub hprod]
  rfl

/-- The index and the table value of a normalised divisor, and the quotient by the formula of R486 on integers. -/
theorem quotient_of_normalised {n d : Nat} (hlow : 0x8000 ≤ d) (hhigh : d ≤ 0xFFFF) :
    let i : Int := (d - 0x7FC0) / 128
    let u : Int := max 0 ((0x40000 / (i + 0x100) + 1) / 2 - 0x101) + 0x101
    0 ≤ i ∧ i ≤ 256 ∧ 0x101 ≤ u ∧ u ≤ 0x200 ∧ 0 ≤ (0x2000080 - d * u : Int) ∧
      (quotient n d (unr ((d - 0x7FC0) / 128) + 0x101) : Int) =
        min 0x1FFFF ((n * ((0x0000080 + (0x2000080 - d * u) / 256 * u) / 256) + 0x8000) / 65536) := by
  have hindex : ((d : Int) - 0x7FC0) / 128 = ((d - 0x7FC0) / 128 : Nat) := by omega
  have hle : (d - 0x7FC0) / 128 ≤ 256 := by omega
  dsimp only
  rw [hindex, ← unr_eq_max]
  have hunr := unr_le ((d - 0x7FC0) / 128)
  obtain ⟨hnonneg, hquotient⟩ := quotient_cast (h := n) (u := unr ((d - 0x7FC0) / 128) + 0x101) hhigh (by omega)
  exact ⟨by omega, by omega, by omega, by omega, hnonneg, hquotient⟩

/-- Settles O40: the table is its formula by cases of one subtraction, the divisor is normalised by the length of its
binary form, and the integer formula is the natural one because no subtraction stops at 0. -/
theorem divisionBounds : Obligations.DivisionBounds := by
  refine ⟨fun i _ => ⟨unr_eq_max i, unr_le i⟩, fun h sz _ hsz => ⟨?flag, fun n hn => ?others, fun hover => ?overflow,
    (divide_val_range h sz).1, (divide_val_range h sz).2, fun hlt => ?quotient⟩,
    by decide, by decide, by decide, by decide⟩
  case flag => exact (divide_flag h sz 17).trans (and_iff_right rfl)
  case others => exact Bool.eq_false_iff.2 fun hset => hn ((divide_flag h sz n).1 hset).1
  case overflow => rw [divide_val, if_pos hover]
  case quotient =>
    obtain ⟨hz, hlow, hhigh⟩ := normalised_range (sz := sz) (by omega) hsz
    refine ⟨_, hz, ?_⟩
    rw [divide_val, if_neg (by omega), reciprocal_eq_quotient]
    have hvalue := quotient_of_normalised (n := h * 2 ^ (16 - bitLength sz)) hlow hhigh
    push_cast at hvalue
    exact ⟨by exact_mod_cast hlow, by exact_mod_cast hhigh, hvalue⟩

end Sys2Proof.Machine
end

section
/-! What a step of a GTE command keeps of the registers commands read, and what the shared steps leave in MAC1-MAC3 and
IR1-IR3, as integers of those registers (46_gte_commands.md R477, R487-R489, R491). -/

namespace Sys2Proof.Machine

/-! ## Keeping all but some data registers -/

/-- From `g` to `t` nothing changed but FLAG and the data registers listed. -/
structure Keeps (W : List Reg) (g t : Gte) : Prop where
  data : ∀ n, n ∉ W → t.getD n = g.getD n
  control : ∀ n, n ≠ 31 → t.getC n = g.getC n

section
variable {W V : List Reg} {g t u : Gte}

theorem Keeps.refl (W : List Reg) (g : Gte) : Keeps W g g := ⟨fun _ _ => rfl, fun _ _ => rfl⟩

theorem Keeps.trans (h : Keeps W g t) (h' : Keeps W t u) : Keeps W g u :=
  ⟨fun n hn => (h'.data n hn).trans (h.data n hn), fun n hn => (h'.control n hn).trans (h.control n hn)⟩

theorem Keeps.mono (h : Keeps W g t) (hsub : W ⊆ V) : Keeps V g t :=
  ⟨fun n hn => h.data n fun hn' => hn (hsub hn'), h.control⟩

theorem Keeps.setD (h : Keeps W g t) {n : Reg} (hn : n ∈ W) (v : Word) : Keeps W g (t.setD n v) :=
  ⟨fun m hm => (getD_setD_ne t v (by rintro rfl; exact hm hn)).trans (h.data m hm), h.control⟩

theorem Keeps.setFlag (h : Keeps W g t) (v : Word) : Keeps W g (t.setC 31 v) :=
  ⟨h.data, fun n hn => (getC_setC_ne t v hn).trans (h.control n hn)⟩

theorem Keeps.orFlag (h : Keeps W g t) (v : Word) : Keeps W g (t.orFlag v) := h.setFlag _

/-- Clearing FLAG, as the frame of a command does. -/
theorem keeps_clearedFlag (g : Gte) : Keeps [] g (g.setC 31 0) := (Keeps.refl [] g).setFlag 0

theorem Keeps.frame {body : Gte → Gte} (h : Keeps W g (body (g.setC 31 0))) : Keeps W g (g.frame body) :=
  ⟨fun n hn => (frame_getD g body n).trans (h.data n hn), fun n hn => by
    rw [frame_getC, if_neg hn]
    exact h.control n hn⟩

/-- The matrices commands read lie in control registers other than FLAG. -/
theorem Keeps.matrixAt (h : Keeps W g t) {b : Reg} (hb : b ∈ ([0, 8, 16] : List Reg)) :
    matrixAt t b = matrixAt g b := by
  have hne : ∀ b ∈ ([0, 8, 16] : List Reg), b ≠ 31 ∧ b + 1 ≠ 31 ∧ b + 2 ≠ 31 ∧ b + 3 ≠ 31 ∧ b + 4 ≠ 31 := by decide
  obtain ⟨h0, h1, h2, h3, h4⟩ := hne b hb
  funext i j
  cases i <;> cases j <;>
    simp only [Machine.matrixAt, h.control _ h0, h.control _ h1, h.control _ h2, h.control _ h3, h.control _ h4]

theorem Keeps.wordsAt (h : Keeps W g t) {b : Reg} (hb : b ∈ ([5, 13, 21] : List Reg)) : wordsAt t b = wordsAt g b := by
  have hne : ∀ b ∈ ([5, 13, 21] : List Reg), b ≠ 31 ∧ b + 1 ≠ 31 ∧ b + 2 ≠ 31 := by decide
  obtain ⟨h0, h1, h2⟩ := hne b hb
  funext l
  cases l <;> simp only [Machine.wordsAt, h.control _ h0, h.control _ h1, h.control _ h2]

theorem Keeps.vectorAt (h : Keeps W g t) (hW : ∀ n : Reg, n ≤ 5 → n ∉ W) (k : Lane) :
    vectorAt t k.vertexReg = vectorAt g k.vertexReg := by
  have hread (n : Reg) (hn : n ≤ 5) := h.data n (hW n hn)
  funext l
  cases k <;> cases l <;> simp only [Machine.vectorAt, Lane.vertexReg] <;> rw [hread _ (by decide)]

theorem Keeps.irsAt (h : Keeps [] g t) : irsAt t = irsAt g :=
  funext fun _ => congrArg lowHalf (h.data _ List.not_mem_nil)

end

/-! ## What the shared steps keep -/

/-- IR1-IR3 and MAC1-MAC3. -/
def vectorD : List Reg := [9, 10, 11, 25, 26, 27]

section
variable {W : List Reg} {g a : Gte} (h : Keeps W g a) (hW : vectorD ⊆ W)
include h hW

theorem Keeps.storeMacs (sf : Bool) (t : Triple Checked) : Keeps W g (a.storeMacs sf t) :=
  (((h.setD (hW (by decide)) _).setD (hW (by decide)) _).setD (hW (by decide)) _).orFlag _

theorem Keeps.storeIrs (t : Triple Checked) : Keeps W g (a.storeIrs t) :=
  (((h.setD (hW (by decide)) _).setD (hW (by decide)) _).setD (hW (by decide)) _).orFlag _

theorem Keeps.macToIr (lm : Bool) : Keeps W g (a.macToIr lm) := h.storeIrs hW _

theorem Keeps.mulMV (sf : Bool) (m : Matrix) (v t : Vec) : Keeps W g (a.mulMV sf m v t) := h.storeMacs hW sf _

theorem Keeps.lightStep (sf lm : Bool) (k : Lane) : Keeps W g (a.lightStep sf lm k) :=
  (((h.mulMV hW sf _ _ _).macToIr hW lm).mulMV hW sf _ _ _).macToIr hW lm

end

/-! ## MAC1-MAC3 and IR1-IR3 -/

/-- MAC1-MAC3 hold the sums, IR1-IR3 follow them. -/
def LeavesVector (sf lm : Bool) (sum : Lanes) (t : Gte) : Prop :=
  (∀ l : Lane, t.getD l.mac = macWord sf (sum l)) ∧ irsFollowMacs lm t

section
variable {g : Gte} {sf lm : Bool}

theorem LeavesVector.frame {body : Gte → Gte} {sum : Lanes} (h : LeavesVector sf lm sum (body (g.setC 31 0))) :
    LeavesVector sf lm sum (g.frame body) := by
  obtain ⟨hmac, hir⟩ := h
  refine ⟨fun l => ?_, fun l => ?_⟩
  · rw [frame_getD, hmac]
  · rw [frame_getD, frame_getD, hir]

theorem irsFollowMacs_macToIr (g : Gte) (lm : Bool) : irsFollowMacs lm (g.macToIr lm) := by
  intro l
  obtain ⟨hlow, hhigh⟩ := irOf_range lm (g.getD l.mac).toInt
  rw [macToIr_ir, macToIr_mac, toInt_ofInt_small hlow (by omega)]
  rfl

theorem leavesVector_macToIr {sum : Lanes} (h : ∀ l : Lane, g.getD l.mac = macWord sf (sum l)) :
    LeavesVector sf lm sum (g.macToIr lm) :=
  ⟨fun l => (macToIr_mac g lm l).trans (h l), irsFollowMacs_macToIr g lm⟩

/-- Three checked values, stored and saturated. -/
theorem leavesVector_checked (g : Gte) (x : Lane → Int) :
    LeavesVector sf lm (fun l => wrapped44 (x l)) ((g.storeMacs sf (eachLane fun i => checkA i (x i))).macToIr lm) := by
  refine leavesVector_macToIr fun l => ?_
  rw [storeMacs_mac, eachLane_get]
  exact congrArg _ (wrap44_eq_wrapped44 _)

/-- IR1-IR3 after `MacToIr()`, read as halves. -/
theorem irsAt_of_leavesVector {sum : Lanes} {t : Gte} (h : LeavesVector sf lm sum t) :
    irsAt t = irsOf sf lm sum := by
  obtain ⟨hmac, hir⟩ := h
  funext l
  obtain ⟨hlow, hhigh⟩ := irOf_range lm (macInt sf (sum l))
  have hword : t.getD l.ir = BitVec.ofInt 32 (irOf lm (macInt sf (sum l))) := by
    refine BitVec.eq_of_toInt_eq ?_
    rw [toInt_ofInt_small hlow (by omega), hir l, hmac l]
    rfl
  exact (congrArg lowHalf hword).trans (lowHalf_ofInt hlow hhigh)

/-- The light colour step, from the IR vector of the registers it starts with (R491, R507). -/
theorem leavesVector_irLight (a : Gte) : LeavesVector sf lm (irLightSum a) (a.irLight sf lm) :=
  leavesVector_macToIr fun l => (storeMacs_mac ..).trans (congrArg _ (lightColour_mulSum a l))

/-- `Light(k)`: the light colour step on the IR vector that the light matrix gives (R491). -/
theorem leavesVector_lightStep (a : Gte) (k : Lane) :
    LeavesVector sf lm (lightSum a sf lm k) (a.lightStep sf lm k) := by
  have hlight : LeavesVector sf lm (mulSum (matrixAt a 8) (vectorAt a k.vertexReg) fun _ => 0)
      ((a.mulMV sf a.light (a.vertex k) zeroVec).macToIr lm) :=
    leavesVector_macToIr fun l => (storeMacs_mac ..).trans (congrArg _ (light_mulSum a k l))
  have hkeeps : Keeps vectorD a ((a.mulMV sf a.light (a.vertex k) zeroVec).macToIr lm) :=
    ((Keeps.refl _ a).mulMV (List.Subset.refl _) sf _ _ _).macToIr (List.Subset.refl _) lm
  have hsum : lightSum a sf lm k = irLightSum ((a.mulMV sf a.light (a.vertex k) zeroVec).macToIr lm) := by
    rw [lightSum, irLightSum, hkeeps.matrixAt (by decide), hkeeps.wordsAt (by decide), irsAt_of_leavesVector hlight]
  rw [hsum]
  exact leavesVector_irLight _

/-- `Interp` from unshifted bases (R489). -/
theorem leavesVector_interp (a : Gte) (base : Lanes) :
    LeavesVector sf lm (cueSum a sf base) ((a.interp sf (eachLane fun i => checkA i (base i))).macToIr lm) := by
  refine leavesVector_macToIr fun l => ?_
  rw [Gte.interp, storeMacs_mac, eachLane_get, eachLane_get, interpLane, farColour_wordsAt]
  simp only [checkA, limB_val, wrap44_eq_wrapped44, shiftOf_shifted, Gte.ir0, s16_eq_lowHalf]
  rfl

end

end Sys2Proof.Machine
end

section
/-! The colour FIFO (46_gte_commands.md R490): the word `ColourPush()` makes, byte by byte, what every command that
pushes one colour leaves, and what those of three leave. -/

namespace Sys2Proof.Machine

/-! ## Shifts

The count of a shift written `v >>> 4` is a natural number or, where Mathlib's integer shift is known, an integer:
both readings are given. -/

theorem shiftRight_natFour (v : Int) : v >>> (4 : Nat) = v / 16 := Int.shiftRight_eq_div_pow v 4

theorem shiftRight_intFour (v : Int) : v >>> (4 : Int) = v / 16 :=
  (Int.shiftRight_natCast_right v 4).trans (shiftRight_natFour v)

/-! ## The colour word -/

/-- Three colour bytes and the code of a fourth. -/
def colourWord (c : Lanes) (code : Word) : Word :=
  trunc32 (c .l1) ||| (trunc32 (c .l2) <<< 8) ||| (trunc32 (c .l3) <<< 16) ||| (code &&& 0xFF000000)

section
variable {c : Lanes} (hc : ∀ l, 0 ≤ c l ∧ c l ≤ 255) (code : Word)
include hc

theorem toNat_trunc32_byte (l : Lane) : ((trunc32 (c l)).toNat : Int) = c l := by
  have := hc l
  rw [trunc32, BitVec.toNat_ofInt]
  omega

theorem getLsbD_trunc32_byte (l : Lane) {k : Nat} (hk : 8 ≤ k) : (trunc32 (c l)).getLsbD k = false := by
  have hvalue := toNat_trunc32_byte hc l
  have hrange := hc l
  have hpow : 2 ^ 8 ≤ 2 ^ k := Nat.pow_le_pow_right (by decide) hk
  exact Nat.testBit_lt_two_pow (by omega)

/-- The bytes lie apart: each bit of the word is a bit of one of them. -/
theorem getLsbD_colourWord {k : Nat} (hk : k < 32) :
    (colourWord c code).getLsbD k =
      if k < 8 then (trunc32 (c .l1)).getLsbD k else if k < 16 then (trunc32 (c .l2)).getLsbD (k - 8)
      else if k < 24 then (trunc32 (c .l3)).getLsbD (k - 16) else code.getLsbD k := by
  have hmask : ∀ k < 32, (0xFF000000 : Word).getLsbD k = decide (24 ≤ k) := by decide
  have hbits (l : Lane) (j : Nat) (hj : 8 ≤ j) := getLsbD_trunc32_byte hc l hj
  simp only [colourWord, BitVec.getLsbD_or, BitVec.getLsbD_shiftLeft, BitVec.getLsbD_and, hmask k hk]
  split_ifs with h8 h16 h24
  · simp [show k < 16 by omega, show ¬ 24 ≤ k by omega, h8]
  · rw [hbits .l1 k (by omega)]
    simp [hk, h8, h16, show ¬ 24 ≤ k by omega]
  · rw [hbits .l1 k (by omega), hbits .l2 (k - 8) (by omega)]
    simp [hk, h16, show ¬ 24 ≤ k by omega]
  · rw [hbits .l1 k (by omega), hbits .l2 (k - 8) (by omega), hbits .l3 (k - 16) (by omega)]
    simp [show 24 ≤ k by omega]

theorem bytesAt_colourWord (l : Lane) : bytesAt (colourWord c code) l = c l := by
  have hbyte : byteOf (colourWord c code) (l.index - 1) = byteOf (trunc32 (c l)) 0 := by
    refine BitVec.eq_of_getLsbD_eq fun k hk => ?_
    rw [byteOf, byteOf, BitVec.getLsbD_extractLsb', BitVec.getLsbD_extractLsb']
    refine congrArg (decide (k < 8) && ·) ?_
    cases l with
    | l1 =>
      show (colourWord c code).getLsbD (0 + k) = (trunc32 (c .l1)).getLsbD (0 + k)
      rw [getLsbD_colourWord hc code (by omega), if_pos (by omega)]
    | l2 =>
      show (colourWord c code).getLsbD (8 + k) = (trunc32 (c .l2)).getLsbD (0 + k)
      rw [getLsbD_colourWord hc code (by omega), if_neg (by omega), if_pos (by omega), Nat.add_sub_cancel_left,
        Nat.zero_add]
    | l3 =>
      show (colourWord c code).getLsbD (16 + k) = (trunc32 (c .l3)).getLsbD (0 + k)
      rw [getLsbD_colourWord hc code (by omega), if_neg (by omega), if_neg (by omega), if_pos (by omega),
        Nat.add_sub_cancel_left, Nat.zero_add]
  have hvalue := toNat_trunc32_byte hc l
  have hrange := hc l
  rw [bytesAt, hbyte, byteOf, BitVec.extractLsb'_toNat]
  omega

theorem byteOf_three_colourWord : byteOf (colourWord c code) 3 = byteOf code 3 := by
  refine BitVec.eq_of_getLsbD_eq fun k hk => ?_
  rw [byteOf, byteOf, BitVec.getLsbD_extractLsb', BitVec.getLsbD_extractLsb', getLsbD_colourWord hc code (by omega),
    if_neg (by omega), if_neg (by omega), if_neg (by omega)]

end

/-! ## Pushing a colour -/

/-- What the commands that push change: IR1-IR3, MAC1-MAC3 and the colour FIFO. -/
def colourD : List Reg := [9, 10, 11, 20, 21, 22, 25, 26, 27]

theorem keeps_colour_start (g : Gte) : Keeps colourD g (g.setC 31 0) := (keeps_clearedFlag g).mono (List.nil_subset _)

theorem vectorD_subset_colourD : vectorD ⊆ colourD := by decide

/-- After a push of one colour by a command that started at `a`, the registers before being those of `g`: the sums in
MAC1-MAC3, IR1-IR3 from them, the FIFO shifted once, the colour of the sums in RGB2. -/
structure Pushes (g a : Gte) (sf lm : Bool) (sum : Lanes) (t : Gte) : Prop where
  vector : LeavesVector sf lm sum t
  rgb0 : t.getD 20 = a.getD 21
  rgb1 : t.getD 21 = a.getD 22
  rgb2 : colourOfSum g sf sum (t.getD 22)
  keeps : Keeps colourD g t

theorem Pushes.frame {g : Gte} {sf lm : Bool} {sum : Lanes} {body : Gte → Gte}
    (h : Pushes g (g.setC 31 0) sf lm sum (body (g.setC 31 0))) : Pushes g g sf lm sum (g.frame body) where
  vector := h.vector.frame
  rgb0 := h.rgb0
  rgb1 := h.rgb1
  rgb2 := h.rgb2
  keeps := h.keeps.frame

theorem colourPush_getD_rgb2 (g : Gte) :
    g.colourPush.getD 22 = colourWord (fun l => (g.colourBytes.get l).val) (g.getD 6) := by
  rw [Gte.colourPush, orFlag_getD, pushRgb_getD, if_pos rfl]
  rfl

theorem colourBytes_val (g : Gte) (l : Lane) :
    (g.colourBytes.get l).val = clamp ((g.getD l.mac).toInt / 16) 0 0xFF := by
  rw [Gte.colourBytes, eachLane_get, limC, macVec_get]
  simp only [shiftRight_natFour, shiftRight_intFour, saturate]

theorem Keeps.colourPush {g a : Gte} (h : Keeps colourD g a) : Keeps colourD g a.colourPush :=
  (((h.setD (by decide) _).setD (by decide) _).setD (by decide) _).orFlag _

section
variable {g a b : Gte} {sf lm : Bool} {sum : Lanes}

theorem pushes_colourPush (ha : Keeps colourD g a) (hb : Keeps vectorD a b) (hvector : LeavesVector sf lm sum b) :
    Pushes g a sf lm sum b.colourPush := by
  have hkeeps : Keeps colourD g b := ha.trans (hb.mono vectorD_subset_colourD)
  obtain ⟨hmac, hir⟩ := hvector
  obtain ⟨hrgb0, hrgb1⟩ := colourPush_shifts b
  have hbyte (l : Lane) : (b.colourBytes.get l).val = clamp (macInt sf (sum l) / 16) 0 0xFF := by
    rw [colourBytes_val, hmac]
    rfl
  have hrange (l : Lane) : 0 ≤ (b.colourBytes.get l).val ∧ (b.colourBytes.get l).val ≤ 255 := by
    rw [hbyte]
    exact clamp_range (by decide) _
  refine ⟨⟨fun l => ?_, fun l => ?_⟩, hrgb0.trans (hb.data 21 (by decide)), hrgb1.trans (hb.data 22 (by decide)),
    ⟨fun l => ?_, ?_⟩, hkeeps.colourPush⟩
  · rw [colourPush_mac, hmac]
  · rw [colourPush_mac, colourPush_ir, hir]
  · rw [colourPush_getD_rgb2, bytesAt_colourWord hrange, hbyte]
  · rw [colourPush_getD_rgb2, byteOf_three_colourWord hrange, hkeeps.data 6 (by decide)]

/-- The depth cue and its colour, from unshifted bases (R489). -/
theorem pushes_interp (ha : Keeps colourD g a) (hb : Keeps vectorD a b) (base : Lanes) :
    Pushes g a sf lm (cueSum g sf base)
      ((b.interp sf (eachLane fun i => checkA i (base i))).macToIr lm).colourPush := by
  have hkeeps : Keeps colourD g b := ha.trans (hb.mono vectorD_subset_colourD)
  have hsum : cueSum g sf base = cueSum b sf base := by
    funext l
    simp only [cueSum, hkeeps.wordsAt (b := 21) (by decide), hkeeps.data 8 (by decide)]
  rw [hsum]
  exact pushes_colourPush ha ((hb.storeMacs (List.Subset.refl _) ..).macToIr (List.Subset.refl _) lm)
    (leavesVector_interp b base)

theorem pushes_checked (ha : Keeps colourD g a) (hb : Keeps vectorD a b) (x : Lanes) :
    Pushes g a sf lm (fun l => wrapped44 (x l))
      ((b.storeMacs sf (eachLane fun i => checkA i (x i))).macToIr lm).colourPush :=
  pushes_colourPush ha ((hb.storeMacs (List.Subset.refl _) ..).macToIr (List.Subset.refl _) lm)
    (leavesVector_checked b x)

/-- The products `ColourOnly` and `ColourDepth` start from (R491). -/
theorem tint_eq (hkeeps : Keeps colourD g b) (l : Lane) :
    b.rgbc.get l * b.irVec.get l * 16 = tint g (irsAt b) l := by
  rw [tint, ← hkeeps.data 6 (by decide), ← colourVec_get, irVec_irsAt]
  rfl

theorem pushes_colourOnly (ha : Keeps colourD g a) (hb : Keeps vectorD a b) :
    Pushes g a sf lm (tintSum g (irsAt b)) (b.colourOnly sf lm) := by
  simp only [Gte.colourOnly, tint_eq (ha.trans (hb.mono vectorD_subset_colourD))]
  exact pushes_checked ha hb _

theorem pushes_colourDepth (ha : Keeps colourD g a) (hb : Keeps vectorD a b) :
    Pushes g a sf lm (cueSum g sf (tint g (irsAt b))) (b.colourDepth sf lm) := by
  simp only [Gte.colourDepth, tint_eq (ha.trans (hb.mono vectorD_subset_colourD))]
  exact pushes_interp ha hb _

theorem pushes_depthCue (ha : Keeps colourD g a) (colour : Word) :
    Pushes g a sf lm (cueSum g sf fun l => bytesAt colour l * 65536) (a.depthCue sf lm colour) := by
  simp only [Gte.depthCue, colourVec_get]
  exact pushes_interp ha (Keeps.refl _ a) _

/-! ## The colour of a vertex -/

theorem lightSum_eq (ha : Keeps colourD g a) (k : Lane) : lightSum a sf lm k = lightSum g sf lm k := by
  simp only [lightSum, ha.matrixAt (b := 8) (by decide), ha.matrixAt (b := 16) (by decide),
    ha.wordsAt (b := 13) (by decide), ha.vectorAt (by decide)]

theorem keeps_lightStep (a : Gte) (k : Lane) : Keeps vectorD a (a.lightStep sf lm k) :=
  (Keeps.refl _ a).lightStep (List.Subset.refl _) sf lm k

theorem irsAt_lightStep (ha : Keeps colourD g a) (k : Lane) :
    irsAt (a.lightStep sf lm k) = irsOf sf lm (lightSum g sf lm k) := by
  rw [irsAt_of_leavesVector (leavesVector_lightStep a k), lightSum_eq ha]

theorem pushes_normalLight (ha : Keeps colourD g a) (k : Lane) :
    Pushes g a sf lm (lightSum g sf lm k) (a.normalLight sf lm k) := by
  rw [← lightSum_eq ha]
  exact pushes_colourPush ha (keeps_lightStep a k) (leavesVector_lightStep a k)

theorem pushes_normalColour (ha : Keeps colourD g a) (k : Lane) :
    Pushes g a sf lm (tintSum g (irsOf sf lm (lightSum g sf lm k))) (a.normalColour sf lm k) := by
  rw [← irsAt_lightStep ha]
  exact pushes_colourOnly ha (keeps_lightStep a k)

theorem pushes_normalDepth (ha : Keeps colourD g a) (k : Lane) :
    Pushes g a sf lm (cueSum g sf (tint g (irsOf sf lm (lightSum g sf lm k)))) (a.normalDepth sf lm k) := by
  rw [← irsAt_lightStep ha]
  exact pushes_colourDepth ha (keeps_lightStep a k)

end

/-! ## Three colours -/

/-- What a command of three vertices or colours leaves: the third in MAC and IR, the colour of each. -/
structure PushesThree (g : Gte) (sf lm : Bool) (sum : Lane → Lanes) (t : Gte) : Prop where
  vector : LeavesVector sf lm (sum .l3) t
  rgb0 : colourOfSum g sf (sum .l1) (t.getD 20)
  rgb1 : colourOfSum g sf (sum .l2) (t.getD 21)
  rgb2 : colourOfSum g sf (sum .l3) (t.getD 22)
  keeps : Keeps colourD g t

section
variable {g a : Gte} {sf lm : Bool} {sum : Lane → Lanes}

theorem PushesThree.frame {body : Gte → Gte} (h : PushesThree g sf lm sum (body (g.setC 31 0))) :
    PushesThree g sf lm sum (g.frame body) where
  vector := h.vector.frame
  rgb0 := h.rgb0
  rgb1 := h.rgb1
  rgb2 := h.rgb2
  keeps := h.keeps.frame

theorem pushesThree {t u v : Gte} (h1 : Pushes g a sf lm (sum .l1) t) (h2 : Pushes g t sf lm (sum .l2) u)
    (h3 : Pushes g u sf lm (sum .l3) v) : PushesThree g sf lm sum v where
  vector := h3.vector
  rgb0 := by
    rw [h3.rgb0, h2.rgb1]
    exact h1.rgb2
  rgb1 := by
    rw [h3.rgb1]
    exact h2.rgb2
  rgb2 := h3.rgb2
  keeps := h3.keeps

theorem pushesThree_eachVertex {b : Gte → Lane → Gte}
    (hb : ∀ a k, Keeps colourD g a → Pushes g a sf lm (sum k) (b a k)) (ha : Keeps colourD g a) :
    PushesThree g sf lm sum (a.eachVertex b) :=
  have h1 := hb a .l1 ha
  have h2 := hb _ .l2 h1.keeps
  pushesThree h1 h2 (hb _ .l3 h2.keeps)

/-- The register of each entry of the colour FIFO (R431). -/
def fifoReg : Lane → Reg
  | .l1 => 20
  | .l2 => 21
  | .l3 => 22

/-- Each turn reads RGB0, where the FIFO has moved the next entry (R515). -/
theorem pushesThree_depthCueFifo (ha : Keeps [] g a) :
    PushesThree g sf lm (fun k => cueSum g sf fun l => bytesAt (g.getD (fifoReg k)) l * 65536)
      (((a.depthCueFifo sf lm).depthCueFifo sf lm).depthCueFifo sf lm) := by
  have h1 : Pushes g a sf lm _ (a.depthCueFifo sf lm) := pushes_depthCue (ha.mono (List.nil_subset _)) (a.getD 20)
  have h2 : Pushes g _ sf lm _ ((a.depthCueFifo sf lm).depthCueFifo sf lm) := pushes_depthCue h1.keeps _
  have h3 : Pushes g _ sf lm _ (((a.depthCueFifo sf lm).depthCueFifo sf lm).depthCueFifo sf lm) :=
    pushes_depthCue h2.keeps _
  rw [ha.data 20 List.not_mem_nil] at h1
  rw [h1.rgb0, ha.data 21 List.not_mem_nil] at h2
  rw [h2.rgb0, h1.rgb1, ha.data 22 List.not_mem_nil] at h3
  exact pushesThree h1 h2 h3

end

end Sys2Proof.Machine
end

section
/-! FLAG as the set of its bits: which bits each check sets, and which a command leaves (46_gte_commands.md
R478-R484; 45_gte_regs.md R426-R428). -/

namespace Sys2Proof.Machine

/-- The bits set in a word are those `f` names. -/
def FlagBits (w : Word) (f : Nat → Prop) : Prop := ∀ n, w.getLsbD n = true ↔ f n

section
variable {v w : Word} {f f' : Nat → Prop}

theorem FlagBits.or (h : FlagBits v f) (h' : FlagBits w f') : FlagBits (v ||| w) fun n => f n ∨ f' n := fun n => by
  rw [BitVec.getLsbD_or, Bool.or_eq_true, h, h']

theorem FlagBits.congr (h : FlagBits w f) (hf : ∀ n, f n ↔ f' n) : FlagBits w f' := fun n => (h n).trans (hf n)

theorem flagBits_zero : FlagBits 0 fun _ => False := fun n => by
  rw [show (0 : Word).getLsbD n = false from BitVec.getLsbD_zero]
  simp

theorem flagBits_of_eq_zero (h : w = 0) : FlagBits w fun _ => False := h ▸ flagBits_zero

/-- Or-ing into a cleared FLAG. -/
theorem FlagBits.zero_or (h : FlagBits w f) : FlagBits (0 ||| w) f :=
  (flagBits_zero.or h).congr fun _ => iff_of_eq (false_or _)

end

/-! ## The checks -/

theorem flagBits_flagBit {n : Nat} (hn : n < 32) (p : Prop) [Decidable p] :
    FlagBits (flagBit n (decide p)) fun k => k = n ∧ p := fun k => by
  rw [flagBit_getLsbD]
  simp only [Bool.and_eq_true, decide_eq_true_eq]
  constructor
  · exact fun h => ⟨h.1.2, h.1.1⟩
  · exact fun h => ⟨⟨h.2, h.1⟩, h.1 ▸ hn⟩

theorem flagBits_saturate {n : Nat} (hn : n < 32) (lo hi v : Int) :
    FlagBits (saturate n lo hi v).flag fun k => k = n ∧ outside v lo hi :=
  flagBits_flagBit hn _

section
variable (i : Lane) (lm : Bool) (v : Int)

theorem flagBits_limB :
    FlagBits (limB i lm v).flag fun k => k = 25 - i.index ∧ outside v (if lm then 0 else -0x8000) 0x7FFF :=
  flagBits_saturate (by omega) _ _ v

theorem flagBits_limD : FlagBits (limD v).flag fun k => k = 18 ∧ outside v 0 0xFFFF :=
  flagBits_saturate (by decide) _ _ v

theorem flagBits_limG1 : FlagBits (limG1 v).flag fun k => k = 14 ∧ outside v (-0x400) 0x3FF :=
  flagBits_saturate (by decide) _ _ v

theorem flagBits_limG2 : FlagBits (limG2 v).flag fun k => k = 13 ∧ outside v (-0x400) 0x3FF :=
  flagBits_saturate (by decide) _ _ v

theorem flagBits_limH : FlagBits (limH v).flag fun k => k = 12 ∧ outside v 0 0x1000 :=
  flagBits_saturate (by decide) _ _ v

/-- `F` (R479). -/
def mac0Flag (v : Int) (n : Nat) : Prop := (n = 16 ∧ v > 2 ^ 31 - 1) ∨ (n = 15 ∧ v < -2 ^ 31)

theorem flagBits_checkF : FlagBits (checkF v).flag (mac0Flag v) :=
  (flagBits_flagBit (by decide) _).or (flagBits_flagBit (by decide) _)

/-- The bits of the 44-bit checks of one component (R478). -/
def laneFlag (xs : List Int) (n : Nat) : Prop :=
  (n = 31 - i.index ∧ ∃ x ∈ xs, x > 2 ^ 43 - 1) ∨ (n = 28 - i.index ∧ ∃ x ∈ xs, x < -2 ^ 43)

theorem flagBits_checkA : FlagBits (checkA i v).flag (laneFlag i [v]) := by
  have hindex : 1 ≤ i.index := by cases i <;> decide
  refine ((flagBits_flagBit (by omega) _).or (flagBits_flagBit (by omega) _)).congr fun n => ?_
  simp [laneFlag]

/-- Three checks of one component, one after the other. -/
theorem FlagBits.or_checkA {w : Word} {xs : List Int} (h : FlagBits w (laneFlag i xs)) :
    FlagBits (w ||| (checkA i v).flag) (laneFlag i (xs ++ [v])) :=
  (h.or (flagBits_checkA i v)).congr fun n => by
    simp only [laneFlag, List.mem_append, or_and_right, exists_or, and_or_left]
    exact or_or_or_comm

end

theorem exists_lane {p : Lane → Prop} : (∃ l, p l) ↔ p .l1 ∨ p .l2 ∨ p .l3 := by
  constructor
  · rintro ⟨l, hl⟩
    cases l with
    | l1 => exact .inl hl
    | l2 => exact .inr (.inl hl)
    | l3 => exact .inr (.inr hl)
  · rintro (h | h | h)
    exacts [⟨_, h⟩, ⟨_, h⟩, ⟨_, h⟩]

/-- The bits of three components. -/
theorem flagBits_flagsOf {t : Triple Checked} {f : Lane → Nat → Prop} (h : ∀ l, FlagBits (t.get l).flag (f l)) :
    FlagBits (flagsOf t) fun n => ∃ l, f l n :=
  (((h .l1).or (h .l2)).or (h .l3)).congr fun n => by rw [exists_lane, or_assoc]

/-! ## A row of `MulMV` (R487) -/

/-- The matrix, or the vector, has the elements listed. -/
def MatrixIs (M : Matrix) (m : Lane → Lanes) : Prop :=
  ∀ i, (M.get i).x = m i .l1 ∧ (M.get i).y = m i .l2 ∧ (M.get i).z = m i .l3

def VectorIs (V : Vec) (u : Lanes) : Prop := V.x = u .l1 ∧ V.y = u .l2 ∧ V.z = u .l3

section
variable {M : Matrix} {m : Lane → Lanes} {V T : Vec} {u tr : Lanes}

theorem mulMVSums_val (hm : MatrixIs M m) (hv : VectorIs V u) (ht : ∀ l, T.get l = tr l) (l : Lane) :
    ((mulMVSums M V T).get l).val = mulSum m u tr l := by
  obtain ⟨hm1, hm2, hm3⟩ := hm l
  obtain ⟨hv1, hv2, hv3⟩ := hv
  rw [mulMVSums_get, dotRow_val, hm1, hm2, hm3, hv1, hv2, hv3, ht, mulSum]

theorem flagBits_mulMVSums (hm : MatrixIs M m) (hv : VectorIs V u) (ht : ∀ l, T.get l = tr l) :
    FlagBits (flagsOf (mulMVSums M V T)) (macFlag (mulPartials m u tr)) := by
  refine flagBits_flagsOf (f := fun l => laneFlag l (mulPartials m u tr l)) fun l => ?_
  obtain ⟨hm1, hm2, hm3⟩ := hm l
  obtain ⟨hv1, hv2, hv3⟩ := hv
  rw [mulMVSums_get, ht, mulPartials, ← hm1, ← hm2, ← hm3, ← hv1, ← hv2, ← hv3]
  simp only [← wrap44_eq_wrapped44]
  exact ((flagBits_checkA l _).or_checkA l _).or_checkA l _

end

/-! ## MAC1-MAC3 and IR1-IR3 stored -/

theorem flagBits_macToIr (g : Gte) (lm : Bool) :
    FlagBits (flagsOf (eachLane fun i => limB i lm (g.macVec.get i)))
      (irFlag lm fun l => (g.getD l.mac).toInt) := by
  refine flagBits_flagsOf fun l => ?_
  rw [eachLane_get, macVec_get]
  exact flagBits_limB l lm _

/-- The checks of the sums, and those of the IR values that follow. -/
theorem flagBits_storeMacs_macToIr {g : Gte} (hg : g.flag = 0) (sf lm : Bool) {t : Triple Checked} {f : Nat → Prop}
    (h : FlagBits (flagsOf t) f) :
    FlagBits ((g.storeMacs sf t).macToIr lm).flag fun n => f n ∨ irFlag lm (fun l => macInt sf (t.get l).val) n := by
  rw [Gte.macToIr, storeIrs_flag, storeMacs_flag, hg]
  refine h.zero_or.or ((flagBits_macToIr _ lm).congr fun n => ?_)
  simp only [storeMacs_mac]
  rfl

/-! ## The frame (R477) -/

section
variable {lm : Bool} {body : Gte → Gte} {f : Nat → Prop} (g : Gte)

theorem clearedFlag_flag : (g.setC 31 0).flag = 0 := getC_setC_self g 31 0

theorem flagIs_frame (hbody : ∀ g, CommandWrites lm g (body g)) (h : FlagBits (body (g.setC 31 0)).flag f) :
    flagIs (g.frame body) f :=
  ⟨flagWf_frame hbody g, fun n hn => by rw [getLsbD_frame_flag g body hn, h]⟩

end

end Sys2Proof.Machine
end

section
/-! OP, SQR, GPF and GPL (46_gte_commands.md R502, R513, R519, R520): products of 16-bit values, which no 44-bit check
cuts. -/

namespace Sys2Proof.Machine

/-! ## Ranges of products -/

theorem s16_range (w : Word) : -2 ^ 15 ≤ s16 w ∧ s16 w < 2 ^ 15 :=
  ⟨BitVec.le_toInt _, BitVec.toInt_lt⟩

theorem mul_range {a b : Int} (ha : -2 ^ 15 ≤ a ∧ a < 2 ^ 15) (hb : -2 ^ 15 ≤ b ∧ b < 2 ^ 15) :
    -2 ^ 30 ≤ a * b ∧ a * b ≤ 2 ^ 30 := by
  have habs : |a * b| ≤ 2 ^ 15 * 2 ^ 15 := by
    rw [abs_mul]
    exact mul_le_mul (abs_le.2 ⟨ha.1, ha.2.le⟩) (abs_le.2 ⟨hb.1, hb.2.le⟩) (abs_nonneg b) (by decide)
  exact abs_le.1 habs

theorem mul_range44 {a b : Int} (ha : -2 ^ 15 ≤ a ∧ a < 2 ^ 15) (hb : -2 ^ 15 ≤ b ∧ b < 2 ^ 15) :
    -2 ^ 43 ≤ a * b ∧ a * b < 2 ^ 43 := by
  have hproduct := mul_range ha hb
  omega

/-- A value in the 44-bit range is not wrapped, and sets no bit. -/
theorem wrapped44_of_range {x : Int} (hlow : -2 ^ 43 ≤ x) (hhigh : x < 2 ^ 43) : wrapped44 x = x := by
  rw [← wrap44_eq_wrapped44, wrap44_of_range hlow hhigh]

theorem not_laneFlag_of_range {i : Lane} {x : Int} (hlow : -2 ^ 43 ≤ x) (hhigh : x < 2 ^ 43) (n : Nat) :
    ¬laneFlag i [x] n := by
  simp only [laneFlag, List.mem_singleton, exists_eq_left]
  omega

/-! ## Vectors of three products -/

section
variable {g : Gte} {sf lm : Bool} {x : Lanes}

/-- A command that stores three values within the 44-bit range, and IR1-IR3 after them. -/
def storesProducts (sf lm : Bool) (x : Lanes) (t : Gte) : Prop :=
  (∀ l : Lane, t.getD l.mac = macWord sf (x l)) ∧ irsFollowMacs lm t ∧ (t.getC 31).extractLsb' 25 6 = 0

theorem storesProducts_frame {body : Gte → Gte} {t : Triple Checked}
    (hbody : body (g.setC 31 0) = ((g.setC 31 0).storeMacs sf t).macToIr lm)
    (ht : ∀ l, t.get l = checkA l (x l)) (hx : ∀ l, -2 ^ 43 ≤ x l ∧ x l < 2 ^ 43) :
    storesProducts sf lm x (g.frame body) := by
  have hval (l : Lane) : (t.get l).val = x l := by
    rw [ht]
    exact wrap44_of_range (hx l).1 (hx l).2
  obtain ⟨hmac, hir⟩ : LeavesVector sf lm x (body (g.setC 31 0)) := by
    rw [hbody]
    exact leavesVector_macToIr fun l => by rw [storeMacs_mac, hval]
  have hflag := flagBits_storeMacs_macToIr (lm := lm) (clearedFlag_flag g) sf
    (flagBits_flagsOf fun l => (ht l).symm ▸ flagBits_checkA l (x l))
  refine ⟨hmac, hir, BitVec.eq_of_getLsbD_eq fun k hk => ?_⟩
  rw [BitVec.getLsbD_extractLsb', getLsbD_frame_flag _ _ (by omega), hbody]
  have hclear : ¬((∃ l, laneFlag l [x l] (25 + k)) ∨ irFlag lm (fun l => macInt sf (t.get l).val) (25 + k)) := by
    rintro (⟨l, hl⟩ | ⟨l, hl, -⟩)
    · exact not_laneFlag_of_range (hx l).1 (hx l).2 _ hl
    · have hindex : 1 ≤ l.index := by cases l <;> decide
      omega
  rw [Bool.eq_false_iff.2 fun hset => hclear ((hflag _).1 hset)]
  simp

/-- Two products of 16-bit values, one less the other. -/
theorem sub_range {a b c d : Int} (ha : -2 ^ 15 ≤ a ∧ a < 2 ^ 15) (hb : -2 ^ 15 ≤ b ∧ b < 2 ^ 15)
    (hc : -2 ^ 15 ≤ c ∧ c < 2 ^ 15) (hd : -2 ^ 15 ≤ d ∧ d < 2 ^ 15) :
    -2 ^ 43 ≤ a * b - c * d ∧ a * b - c * d < 2 ^ 43 := by
  have hab := mul_range ha hb
  have hcd := mul_range hc hd
  omega

end

/-! ## OP and SQR -/

section
variable (g : Gte) (sf lm : Bool)

/-- The cross product of IR and the diagonal of RT (R502). -/
def crossProduct (g : Gte) : Lanes
  | .l1 => s16 (g.getD 11) * s16 (g.getC 2) - s16 (g.getD 10) * s16 (g.getC 4)
  | .l2 => s16 (g.getD 9) * s16 (g.getC 4) - s16 (g.getD 11) * s16 (g.getC 0)
  | .l3 => s16 (g.getD 10) * s16 (g.getC 0) - s16 (g.getD 9) * s16 (g.getC 2)

theorem crossProduct_range (l : Lane) : -2 ^ 43 ≤ crossProduct g l ∧ crossProduct g l < 2 ^ 43 := by
  cases l <;> exact sub_range (s16_range _) (s16_range _) (s16_range _) (s16_range _)

theorem outer_get (l : Lane) : (g.setC 31 0).outer.get l = checkA l (crossProduct g l) := by
  have h0 := getC_setC_ne g 0 (show (0 : Reg) ≠ 31 by decide)
  have h2 := getC_setC_ne g 0 (show (2 : Reg) ≠ 31 by decide)
  have h4 := getC_setC_ne g 0 (show (4 : Reg) ≠ 31 by decide)
  cases l <;>
    simp only [Triple.get, Gte.outer, Gte.rotation, matrixOf, Gte.irVec, crossProduct, h0, h2, h4] <;> rfl

theorem storesProducts_op : storesProducts sf lm (crossProduct g) (g.frame (gteOp sf lm)) :=
  storesProducts_frame rfl (outer_get g) (crossProduct_range g)

theorem storesProducts_sqr :
    storesProducts sf lm (fun l => s16 (g.getD l.ir) * s16 (g.getD l.ir)) (g.frame (gteSqr sf lm)) := by
  refine storesProducts_frame (body := gteSqr sf lm) rfl (fun l => ?_) fun l => ?_
  · rw [eachLane_get, irVec_irsAt, irsAt, ← s16_eq_lowHalf]
    rfl
  · exact mul_range44 (s16_range _) (s16_range _)

/-! ## GPF and GPL -/

theorem pushes_gpf :
    Pushes g (g.setC 31 0) sf lm (fun l => wrapped44 (irsAt g l * lowHalf (g.getD 8)))
      (gteGpf sf lm (g.setC 31 0)) := by
  have hpush := pushes_checked (sf := sf) (lm := lm) (keeps_colour_start g) (Keeps.refl vectorD (g.setC 31 0))
    fun l => irsAt g l * lowHalf (g.getD 8)
  simp only [← irVec_irsAt, ← s16_eq_lowHalf] at hpush ⊢
  exact hpush

theorem pushes_gpl :
    Pushes g (g.setC 31 0) sf lm
      (fun l => wrapped44 ((g.getD l.mac).toInt * (if sf then 4096 else 1) + irsAt g l * lowHalf (g.getD 8)))
      (gteGpl sf lm (g.setC 31 0)) := by
  have hscale (v : Int) : v * (if sf then 4096 else 1) = scaleUp sf v := by
    cases sf <;> simp [scaleUp]
  have hpush := pushes_checked (sf := sf) (lm := lm) (keeps_colour_start g) (Keeps.refl vectorD (g.setC 31 0))
    fun l => (g.getD l.mac).toInt * (if sf then 4096 else 1) + irsAt g l * lowHalf (g.getD 8)
  simp only [hscale, ← irVec_irsAt, ← macVec_get, ← s16_eq_lowHalf] at hpush ⊢
  exact hpush

end

/-- The colour pushed is the one of MAC1-MAC3 (R490). -/
theorem colourFollowsMacs_of_pushes {g a t : Gte} {sf lm : Bool} {sum : Lanes} (h : Pushes g a sf lm sum t) :
    colourFollowsMacs t := by
  obtain ⟨hbytes, hcode⟩ := h.rgb2
  obtain ⟨hmac, -⟩ := h.vector
  refine ⟨fun l => ?_, ?_⟩
  · have hbyte := hbytes l
    rw [macInt, ← hmac l] at hbyte
    simp only [shiftRight_natFour, shiftRight_intFour]
    exact hbyte
  · rw [hcode, h.keeps.data 6 (by decide)]

/-! ## The obligation -/

/-- Settles O44: a product of two 16-bit values, or the difference of two, is never cut to 44 bits; GPL's sum is. -/
theorem productCommandResults : Obligations.ProductCommandResults := by
  intro s sf lm g shift ir ir0 mac rt11 rt22 rt33
  have hir (l : Lane) : irsAt g l = ir l := (s16_eq_lowHalf _).symm
  have hir0 : lowHalf (g.getD 8) = ir0 := (s16_eq_lowHalf _).symm
  refine ⟨fun hc => commands_of_exec rfl hc ?op, fun hc => commands_of_exec rfl hc ?sqr,
    fun hc => commands_of_exec rfl hc ?gpf, fun hc => commands_of_exec rfl hc ?gpl⟩
  case op =>
    obtain ⟨hmac, hirs, hflag⟩ := storesProducts_op g sf lm
    exact ⟨hmac .l1, hmac .l2, hmac .l3, hirs, hflag⟩
  case sqr => exact storesProducts_sqr g sf lm
  case gpf =>
    have hpush := (pushes_gpf g sf lm).frame (body := gteGpf sf lm)
    obtain ⟨hmac, hirs⟩ := hpush.vector
    refine ⟨fun l => ?_, hirs, colourFollowsMacs_of_pushes hpush⟩
    obtain ⟨hlow, hhigh⟩ : -2 ^ 43 ≤ ir l * ir0 ∧ ir l * ir0 < 2 ^ 43 := mul_range44 (s16_range _) (s16_range _)
    have hvalue := hmac l
    simp only [hir, hir0, wrapped44_of_range hlow hhigh] at hvalue
    exact hvalue
  case gpl =>
    have hpush := (pushes_gpl g sf lm).frame (body := gteGpl sf lm)
    obtain ⟨hmac, hirs⟩ := hpush.vector
    refine ⟨fun l => ?_, hirs, colourFollowsMacs_of_pushes hpush⟩
    have hscale : (g.getD l.mac).toInt * (if sf then 4096 else 1) = if sf then mac l * 4096 else mac l := by
      cases sf
      · exact mul_one _
      · rfl
    have hvalue := hmac l
    simp only [hir, hir0, hscale, ← wrap44_eq_wrapped44] at hvalue
    exact hvalue

end Sys2Proof.Machine
end

section
/-! MVMVA (46_gte_commands.md R505): the matrix, vector and translation it selects, the sums and their checks. -/

namespace Sys2Proof.Machine

/-! ## The operands selected -/

section
variable (g : Gte)

theorem mvmMatrix_is (mx : MvmMatrix) : MatrixIs (g.mvmMatrix mx) (mvmMatrixAt g mx) := by
  cases mx with
  | rt => exact rotation_matrixAt g
  | llm => exact light_matrixAt g
  | lcm => exact lightColour_matrixAt g
  | garbage =>
    intro i
    cases i with
    | l1 => exact ⟨rfl, rfl, s16_eq_lowHalf _⟩
    | l2 | l3 => exact ⟨s16_eq_lowHalf _, s16_eq_lowHalf _, s16_eq_lowHalf _⟩

theorem mvmVector_is (v : MvmVector) : VectorIs (g.mvmVector v) (mvmVectorAt g v) := by
  cases v with
  | v0 => exact vertex_vectorAt g .l1
  | v1 => exact vertex_vectorAt g .l2
  | v2 => exact vertex_vectorAt g .l3
  | ir => exact ⟨irVec_irsAt g .l1, irVec_irsAt g .l2, irVec_irsAt g .l3⟩

theorem mvmTranslation_get (cv : MvmTranslation) (l : Lane) :
    (g.mvmTranslation cv).get l = mvmTranslationAt g cv l := by
  cases cv with
  | tr => exact translation_wordsAt g l
  | bk => exact background_wordsAt g l
  | fc => exact farColour_wordsAt g l
  | zero => cases l <;> rfl

end

section
variable {g t : Gte} (h : Keeps [] g t)
include h

theorem Keeps.mvmMatrixAt (mx : MvmMatrix) : mvmMatrixAt t mx = mvmMatrixAt g mx := by
  cases mx with
  | rt | llm | lcm => exact h.matrixAt (by decide)
  | garbage =>
    simp only [Machine.mvmMatrixAt, h.data 6 List.not_mem_nil, h.data 8 List.not_mem_nil, h.control 1 (by decide),
      h.control 2 (by decide)]

theorem Keeps.mvmVectorAt (v : MvmVector) : mvmVectorAt t v = mvmVectorAt g v := by
  cases v with
  | v0 => exact h.vectorAt (fun _ _ => List.not_mem_nil) .l1
  | v1 => exact h.vectorAt (fun _ _ => List.not_mem_nil) .l2
  | v2 => exact h.vectorAt (fun _ _ => List.not_mem_nil) .l3
  | ir => exact h.irsAt

theorem Keeps.mvmTranslationAt (cv : MvmTranslation) : mvmTranslationAt t cv = mvmTranslationAt g cv := by
  cases cv with
  | tr | bk | fc => exact h.wordsAt (by decide)
  | zero => rfl

end

/-! ## The sums with cv = 2 -/

section
variable {M : Vec} {V : Vec} {m u : Lanes} (hm : M.x = m .l1 ∧ M.y = m .l2 ∧ M.z = m .l3) (hv : VectorIs V u)
  (i : Lane) (sf : Bool) (fc : Int)
include hm hv

/-- The far colour and the first column are lost from the value. -/
theorem mvmFarLane_val : (mvmFarLane i sf fc M V).val = wrapped44 (m .l2 * u .l2 + m .l3 * u .l3) := by
  obtain ⟨-, hm2, hm3⟩ := hm
  obtain ⟨-, hv2, hv3⟩ := hv
  rw [← hm2, ← hm3, ← hv2, ← hv3, ← wrap44_eq_wrapped44, ← wrap44_add]
  rfl

/-- They still set the bits of their check and of their saturation. -/
theorem flagBits_mvmFarLane :
    FlagBits (mvmFarLane i sf fc M V).flag fun n =>
      laneFlag i [fc * 4096 + m .l1 * u .l1, m .l2 * u .l2, wrapped44 (m .l2 * u .l2) + m .l3 * u .l3] n ∨
        (n = 25 - i.index ∧
          outside (shifted sf (wrapped44 (fc * 4096 + m .l1 * u .l1))) (if false then 0 else -0x8000) 0x7FFF) := by
  obtain ⟨hm1, hm2, hm3⟩ := hm
  obtain ⟨hv1, hv2, hv3⟩ := hv
  rw [← hm1, ← hm2, ← hm3, ← hv1, ← hv2, ← hv3]
  simp only [← wrap44_eq_wrapped44, ← shiftOf_shifted]
  have hchecks := ((flagBits_checkA i (fc * 4096 + M.x * V.x)).or_checkA i (M.y * V.y)).or_checkA i
    (wrap44 (M.y * V.y) + M.z * V.z)
  have hlost := flagBits_limB i false (wrap44 (fc * 4096 + M.x * V.x) >>> shiftOf sf)
  have hflag : (mvmFarLane i sf fc M V).flag =
      ((checkA i (fc * 4096 + M.x * V.x)).flag ||| (checkA i (M.y * V.y)).flag |||
        (checkA i (wrap44 (M.y * V.y) + M.z * V.z)).flag) |||
      (limB i false (wrap44 (fc * 4096 + M.x * V.x) >>> shiftOf sf)).flag := by
    simp only [mvmFarLane, checkA]
    ac_rfl
  rw [hflag]
  exact hchecks.or hlost

end

/-! ## The obligation -/

theorem commandWrites_mvmva (sf : Bool) (mx : MvmMatrix) (v : MvmVector) (cv : MvmTranslation) (lm : Bool) (g : Gte) :
    CommandWrites lm g (gteMvmva sf mx v cv lm g) :=
  (commandWrites_storeMacs g sf (highFlag_mvmSums g sf _ _ cv)).macToIr lm

/-- What MVMVA leaves, from the values and the bits of its three sums. -/
theorem commands_mvmva {s : State} {sf : Bool} {mx : MvmMatrix} {v : MvmVector} {cv : MvmTranslation} {lm : Bool}
    (hc : GteCmd.mvmva ∈ s.cfg.gteImplemented) {sum : Lanes} {f : Nat → Prop}
    (hsum : ∀ l, ((mvmSums sf ((s.gte.setC 31 0).mvmMatrix mx) ((s.gte.setC 31 0).mvmVector v) cv
      (s.gte.setC 31 0)).get l).val = sum l)
    (hflag : FlagBits (flagsOf (mvmSums sf ((s.gte.setC 31 0).mvmMatrix mx) ((s.gte.setC 31 0).mvmVector v) cv
      (s.gte.setC 31 0))) f) :
    Commands (.gteMvmva sf mx v cv lm) s fun t =>
      (∀ l : Lane, t.getD l.mac = macWord sf (sum l)) ∧ irsFollowMacs lm t ∧
        flagIs t fun n => f n ∨ irFlag lm (fun l => macInt sf (sum l)) n := by
  have hvector : LeavesVector sf lm sum (gteMvmva sf mx v cv lm (s.gte.setC 31 0)) :=
    leavesVector_macToIr fun l => (storeMacs_mac ..).trans (congrArg _ (hsum l))
  have hbits := flagBits_storeMacs_macToIr (lm := lm) (clearedFlag_flag s.gte) sf hflag
  simp only [hsum] at hbits
  obtain ⟨hmac, hir⟩ := hvector.frame
  exact commands_of_exec rfl hc ⟨hmac, hir, flagIs_frame s.gte (commandWrites_mvmva sf mx v cv lm) hbits⟩

/-- Settles O45: the sums of MulMV for every translation but the far colour, and of the two last columns for it. -/
theorem matrixVectorResults : Obligations.MatrixVectorResults := by
  intro s sf mx v cv lm hc g m u tr far rest leaves
  have hkeeps := keeps_clearedFlag g
  have hm : MatrixIs ((g.setC 31 0).mvmMatrix mx) m := by
    have := mvmMatrix_is (g.setC 31 0) mx
    rwa [hkeeps.mvmMatrixAt] at this
  have hu : VectorIs ((g.setC 31 0).mvmVector v) u := by
    have := mvmVector_is (g.setC 31 0) v
    rwa [hkeeps.mvmVectorAt] at this
  have htr (l : Lane) : ((g.setC 31 0).mvmTranslation cv).get l = tr l := by
    rw [mvmTranslation_get, hkeeps.mvmTranslationAt]
  refine ⟨fun hcv => ?sums, fun hcv => ?far⟩
  case sums =>
    have hsums : mvmSums sf ((g.setC 31 0).mvmMatrix mx) ((g.setC 31 0).mvmVector v) cv (g.setC 31 0) =
        mulMVSums ((g.setC 31 0).mvmMatrix mx) ((g.setC 31 0).mvmVector v) ((g.setC 31 0).mvmTranslation cv) := by
      cases cv with
      | fc => exact absurd rfl hcv
      | tr | bk | zero => rfl
    refine commands_mvmva hc (fun l => ?_) ?_
    · rw [hsums, mulMVSums_val hm hu htr]
    · rw [hsums]
      exact flagBits_mulMVSums hm hu htr
  case far =>
    subst hcv
    have hfar (l : Lane) : (g.setC 31 0).farColour.get l = tr l := htr l
    refine commands_mvmva hc (fun l => ?_) ?_
    · rw [mvmSums, eachLane_get, mvmFarLane_val (hm l) hu]
    · refine (flagBits_flagsOf fun l => ?_).congr fun n => exists_or
      rw [mvmSums, eachLane_get, hfar]
      exact flagBits_mvmFarLane (hm l) hu l sf (tr l)

end Sys2Proof.Machine
end

section
/-! RTPS and RTPT (46_gte_commands.md R500, R518): the transformation of a vertex, its projection, and the depth cue of
the last. -/

namespace Sys2Proof.Machine

/-! ## Shifts

The count of a shift written `v >>> 16` is a natural number or, where Mathlib's integer shift is known, an integer:
both readings are given. -/

theorem shiftRight_natSixteen (v : Int) : v >>> (16 : Nat) = v / 65536 := Int.shiftRight_eq_div_pow v 16

theorem shiftRight_intSixteen (v : Int) : v >>> (16 : Int) = v / 65536 :=
  (Int.shiftRight_natCast_right v 16).trans (shiftRight_natSixteen v)

/-! ## The registers read -/

/-- What a transformation changes: IR0-IR3, the SXY and SZ FIFOs, MAC0-MAC3. -/
def perspD : List Reg := [8, 9, 10, 11, 12, 13, 14, 16, 17, 18, 19, 24, 25, 26, 27]

theorem vectorD_subset_perspD : vectorD ⊆ perspD := by decide

section
variable {g a : Gte} (h : Keeps perspD g a) (k : Lane)
include h

theorem Keeps.pushSz (v : Word) : Keeps perspD g (a.pushSz v) :=
  (((h.setD (by decide) _).setD (by decide) _).setD (by decide) _).setD (by decide) _

theorem perspSum_eq : perspSum a k = perspSum g k := by
  rw [perspSum, perspSum, h.matrixAt (by decide), h.wordsAt (by decide), h.vectorAt (by decide)]

theorem rtpDepth_eq : a.rtpDepth k = limD (perspZ g k) := by
  have hsum := rotation_mulSum a k .l3
  rw [perspSum_eq h] at hsum
  rw [Gte.rtpDepth, perspZ, ← hsum]
  simp only [shiftRight_natTwelve, shiftRight_intTwelve]
  rfl

theorem toNat_u16_planeH : (u16 (a.getC 26)).toNat = planeH g := by
  rw [h.control 26 (by decide), u16, BitVec.extractLsb'_toNat, planeH]
  omega

end

/-! ## The transformation -/

/-- The bits of a vertex's transformation: the 44-bit checks, IR1 and IR2, and IR3 from z whatever sf is. -/
def transformFlag (g : Gte) (sf lm : Bool) (k : Lane) (n : Nat) : Prop :=
  macFlag (mulPartials (matrixAt g 0) (vectorAt g k.vertexReg) (wordsAt g 5)) n ∨
  (n = 24 ∧ outside (macInt sf (perspSum g k .l1)) (if lm then 0 else -0x8000) 0x7FFF) ∨
  (n = 23 ∧ outside (macInt sf (perspSum g k .l2)) (if lm then 0 else -0x8000) 0x7FFF) ∨
  (n = 22 ∧ outside (perspZ g k) (-0x8000) 0x7FFF)

section
variable {g a : Gte} (h : Keeps perspD g a) (sf lm : Bool) (k : Lane)

theorem keeps_rtpTransform (a : Gte) : Keeps vectorD a (a.rtpTransform sf lm k) :=
  ((Keeps.refl _ a).storeMacs (List.Subset.refl _) ..).storeIrs (List.Subset.refl _) _

include h

theorem storeMacs_rotation_mac (l : Lane) :
    (a.storeMacs sf (mulMVSums a.rotation (a.vertex k) a.translation)).getD l.mac = macWord sf (perspSum g k l) := by
  rw [storeMacs_mac, rotation_mulSum, perspSum_eq h]

theorem leavesVector_rtpTransform : LeavesVector sf lm (perspSum g k) (a.rtpTransform sf lm k) := by
  have hmac := storeMacs_rotation_mac h sf k
  refine ⟨fun l => (storeIrs_mac ..).trans (hmac l), fun l => ?_⟩
  obtain ⟨hlow, hhigh⟩ := irOf_range lm (macInt sf (perspSum g k l))
  have hval : (a.rtpTransform sf lm k).getD l.ir = BitVec.ofInt 32 (irOf lm (macInt sf (perspSum g k l))) := by
    rw [macInt, ← hmac, Gte.rtpTransform, storeIrs_ir]
    cases l <;> rfl
  rw [hval, toInt_ofInt_small hlow (by omega), Gte.rtpTransform, storeIrs_mac, hmac]
  rfl

theorem flagBits_rtpTransform {f : Nat → Prop} (hf : FlagBits a.flag f) :
    FlagBits (a.rtpTransform sf lm k).flag fun n => f n ∨ transformFlag g sf lm k n := by
  have hmac := storeMacs_rotation_mac h sf k
  have hsums := flagBits_mulMVSums (rotation_matrixAt a) (vertex_vectorAt a k) (translation_wordsAt a)
  rw [h.matrixAt (by decide), h.wordsAt (by decide), h.vectorAt (by decide)] at hsums
  have hir (l : Lane) := flagBits_limB l lm (macInt sf (perspSum g k l))
  have hz := flagBits_flagBit (n := 22) (by decide) (perspZ g k < -32768 ∨ 32767 < perspZ g k)
  have hsum := rotation_mulSum a k .l3
  rw [perspSum_eq h] at hsum
  have hflag : (a.rtpTransform sf lm k).flag =
      (a.flag ||| flagsOf (mulMVSums a.rotation (a.vertex k) a.translation)) |||
        ((limB .l1 lm (macInt sf (perspSum g k .l1))).flag ||| (limB .l2 lm (macInt sf (perspSum g k .l2))).flag |||
          flagBit 22 (decide (perspZ g k < -32768 ∨ 32767 < perspZ g k))) := by
    rw [macInt, macInt, ← hmac, ← hmac, perspZ, ← hsum, Gte.rtpTransform, storeIrs_flag, storeMacs_flag]
    simp only [shiftRight_natTwelve, shiftRight_intTwelve]
    rfl
  rw [hflag]
  refine ((hf.or hsums).or (((hir .l1).or (hir .l2)).or hz)).congr fun n => ?_
  simp only [transformFlag, or_assoc]
  rfl

end

/-! ## The projection -/

/-- The screen point of the projection onto `x` and `y`, pushed. -/
def Gte.pushPoint (g : Gte) (x y : Int) : Gte :=
  (g.pushSxy (packSxy (limG1 (x / 65536)).val (limG2 (y / 65536)).val)).orFlag
    ((checkF x).flag ||| (checkF y).flag ||| (limG1 (x / 65536)).flag ||| (limG2 (y / 65536)).flag)

/-- The depth cue `v` in MAC0 and IR0. -/
def Gte.storeCue (g : Gte) (v : Int) : Gte :=
  ((g.storeMac0 (checkF v)).setD 8 (trunc32 (limH (v / 4096)).val)).orFlag (limH (v / 4096)).flag

section
variable (g : Gte) (n x y v : Int)

theorem rtpProject_false :
    g.rtpProject n false =
      g.pushPoint (n * g.irVec.x + (g.getC 24).toInt) (n * g.irVec.y + (g.getC 25).toInt) := by
  simp only [Gte.rtpProject, Gte.pushPoint, checkF_val, shiftRight_natSixteen, shiftRight_intSixteen]
  rfl

theorem rtpProject_true :
    g.rtpProject n true = (g.rtpProject n false).storeCue (n * s16 (g.getC 27) + (g.getC 28).toInt) := by
  simp only [Gte.rtpProject, Gte.storeCue, checkF_val, shiftRight_natTwelve, shiftRight_intTwelve]
  rfl

theorem pushPoint_getD (q : Reg) :
    (g.pushPoint x y).getD q =
      if q = 14 then packSxy (limG1 (x / 65536)).val (limG2 (y / 65536)).val
      else if q = 13 then g.getD 14 else if q = 12 then g.getD 13 else g.getD q := by
  rw [Gte.pushPoint, orFlag_getD, pushSxy_getD]

/-- The SXY FIFO. -/
def sxyD : List Reg := [12, 13, 14]

theorem pushPoint_getD_ne {q : Reg} (hq : q ∉ sxyD) : (g.pushPoint x y).getD q = g.getD q := by
  simp only [sxyD, List.mem_cons, List.not_mem_nil, or_false, not_or] at hq
  obtain ⟨h12, h13, h14⟩ := hq
  rw [pushPoint_getD, if_neg h14, if_neg h13, if_neg h12]

/-- The halves of the point pushed. -/
theorem pushPoint_halves :
    lowHalf ((g.pushPoint x y).getD 14) = clamp (x / 65536) (-0x400) 0x3FF ∧
      highHalf ((g.pushPoint x y).getD 14) = clamp (y / 65536) (-0x400) 0x3FF := by
  obtain ⟨hxlow, hxhigh⟩ := clamp_range (show (-0x400 : Int) ≤ 0x3FF by decide) (x / 65536)
  obtain ⟨hylow, hyhigh⟩ := clamp_range (show (-0x400 : Int) ≤ 0x3FF by decide) (y / 65536)
  rw [pushPoint_getD, if_pos rfl, ← s16_eq_lowHalf, ← hi16s_eq_highHalf, s16_packSxy_eq_lowHalf,
    hi16s_packSxy_eq_lowHalf]
  exact ⟨lowHalf_ofInt (x := clamp (x / 65536) (-0x400) 0x3FF) (by omega) (by omega),
    lowHalf_ofInt (x := clamp (y / 65536) (-0x400) 0x3FF) (by omega) (by omega)⟩

/-- The bits of a point: the MAC0 checks of `x` and `y`, the screen coordinates. -/
def pointFlag (x y : Int) (n : Nat) : Prop :=
  (n = 16 ∧ (x > 2 ^ 31 - 1 ∨ y > 2 ^ 31 - 1)) ∨ (n = 15 ∧ (x < -2 ^ 31 ∨ y < -2 ^ 31)) ∨
  (n = 14 ∧ outside (x / 65536) (-0x400) 0x3FF) ∨ (n = 13 ∧ outside (y / 65536) (-0x400) 0x3FF)

variable {g} in
theorem flagBits_pushPoint {f : Nat → Prop} (hf : FlagBits g.flag f) :
    FlagBits (g.pushPoint x y).flag fun n => f n ∨ pointFlag x y n := by
  have hx := flagBits_checkF x
  have hy := flagBits_checkF y
  have hsx := flagBits_limG1 (x / 65536)
  have hsy := flagBits_limG2 (y / 65536)
  rw [Gte.pushPoint, orFlag_flag]
  refine (hf.or (((hx.or hy).or hsx).or hsy)).congr fun n => or_congr_right ?_
  simp only [mac0Flag, pointFlag]
  tauto

variable {g} in
theorem flagBits_storeCue {f : Nat → Prop} (hf : FlagBits g.flag f) :
    FlagBits (g.storeCue v).flag fun n => f n ∨ mac0Flag v n ∨ (n = 12 ∧ outside (v / 4096) 0 0x1000) := by
  have hv := flagBits_checkF v
  have hir0 := flagBits_limH (v / 4096)
  rw [Gte.storeCue, orFlag_flag, setD_flag, storeMac0_flag]
  exact ((hf.or hv).or hir0).congr fun n => or_assoc

theorem storeCue_getD_ne {q : Reg} (h8 : q ≠ 8) (h24 : q ≠ 24) : (g.storeCue v).getD q = g.getD q := by
  rw [Gte.storeCue, orFlag_getD, getD_setD_ne _ _ h8, storeMac0_getD, if_neg h24]

theorem storeCue_mac0 : (g.storeCue v).getD 24 = BitVec.ofInt 32 v := by
  rw [Gte.storeCue, orFlag_getD, getD_setD_ne _ _ (by decide), storeMac0_getD, if_pos rfl]
  rfl

theorem storeCue_ir0 : ((g.storeCue v).getD 8).toInt = clamp (v / 4096) 0 0x1000 := by
  obtain ⟨hlow, hhigh⟩ := clamp_range (show (0 : Int) ≤ 0x1000 by decide) (v / 4096)
  rw [Gte.storeCue, orFlag_getD, getD_setD_self]
  exact toInt_ofInt_small (x := clamp (v / 4096) 0 0x1000) (by omega) (by omega)

end

/-! ## One vertex -/

/-- A vertex transformed and projected from `a`, the registers before being those of `g`: the vector in MAC and IR, the
depth and the screen point behind the FIFOs, shifted, and the bits of the checks. -/
structure Projects (g a : Gte) (sf lm : Bool) (k : Lane) (t : Gte) : Prop where
  vector : LeavesVector sf lm (perspSum g k) t
  sz0 : t.getD 16 = a.getD 17
  sz1 : t.getD 17 = a.getD 18
  sz2 : t.getD 18 = a.getD 19
  sz3 : ((t.getD 19).toNat : Int) = perspSz g k
  sxy0 : t.getD 12 = a.getD 13
  sxy1 : t.getD 13 = a.getD 14
  sxy2 : screenPoint g sf lm k (t.getD 14)
  flag : ∀ f, FlagBits a.flag f → FlagBits t.flag fun n => f n ∨ perspFlag g sf lm k n
  keeps : Keeps perspD g t

/-- The bank before the projection: the transformation, its depth pushed, and the bits of the depth and the division. -/
def Gte.beforeProjection (g : Gte) (sf lm : Bool) (k : Lane) (z : Int) (factor : Checked) : Gte :=
  (((g.rtpTransform sf lm k).pushSz (trunc32 (limD z).val)).orFlag (limD z).flag).orFlag factor.flag

/-- The SZ FIFO. -/
def szD : List Reg := [16, 17, 18, 19]

section
variable (g : Gte) (sf lm : Bool) (k : Lane) (z : Int) (factor : Checked)

theorem beforeProjection_getD (q : Reg) :
    (g.beforeProjection sf lm k z factor).getD q =
      ((g.rtpTransform sf lm k).pushSz (trunc32 (limD z).val)).getD q := by
  rw [Gte.beforeProjection, orFlag_getD, orFlag_getD]

theorem beforeProjection_getD_ne {q : Reg} (hq : q ∉ szD) :
    (g.beforeProjection sf lm k z factor).getD q = (g.rtpTransform sf lm k).getD q := by
  simp only [szD, List.mem_cons, List.not_mem_nil, or_false, not_or] at hq
  obtain ⟨h16, h17, h18, h19⟩ := hq
  rw [beforeProjection_getD, pushSz_getD, if_neg h19, if_neg h18, if_neg h17, if_neg h16]

theorem beforeProjection_flag :
    (g.beforeProjection sf lm k z factor).flag = (g.rtpTransform sf lm k).flag ||| (limD z).flag ||| factor.flag := by
  have hpush (v : Word) : ((g.rtpTransform sf lm k).pushSz v).flag = (g.rtpTransform sf lm k).flag := rfl
  rw [Gte.beforeProjection, orFlag_flag, orFlag_flag, hpush]

end

theorem perspSz_range (g : Gte) (k : Lane) : 0 ≤ perspSz g k ∧ perspSz g k ≤ 0xFFFF := by
  rw [perspSz]
  exact clamp_range (by decide) _

section
variable {g a : Gte} (h : Keeps perspD g a) (sf lm : Bool) (k : Lane)
include h

theorem rtp_eq (last : Bool) :
    a.rtp sf lm k last =
      (a.beforeProjection sf lm k (perspZ g k) (divide (planeH g) (perspSz g k).toNat)).rtpProject
        (perspFactor g k) last := by
  rw [Gte.rtp, rtpDepth_eq h, toNat_u16_planeH h]
  rfl

theorem keeps_beforeProjection (z : Int) (factor : Checked) : Keeps perspD g (a.beforeProjection sf lm k z factor) := by
  have htransform := h.trans ((keeps_rtpTransform sf lm k a).mono vectorD_subset_perspD)
  exact ((htransform.pushSz _).orFlag _).orFlag _

/-- The coordinates are those of the IR vector the transformation left. -/
theorem irVec_beforeProjection (z : Int) (factor : Checked) (l : Lane) :
    (a.beforeProjection sf lm k z factor).irVec.get l = perspIr g sf lm k l := by
  have hirs := irsAt_of_leavesVector (leavesVector_rtpTransform h sf lm k)
  have hne : ∀ l : Lane, l.ir ∉ szD := by
    intro l
    cases l <;> decide
  rw [irVec_irsAt, perspIr, ← hirs, irsAt, beforeProjection_getD_ne _ _ _ _ _ _ (hne l), irsAt]

theorem rtp_false :
    a.rtp sf lm k false =
      (a.beforeProjection sf lm k (perspZ g k) (divide (planeH g) (perspSz g k).toNat)).pushPoint
        (perspX g sf lm k) (perspY g sf lm k) := by
  have hx := irVec_beforeProjection h sf lm k (perspZ g k) (divide (planeH g) (perspSz g k).toNat) .l1
  have hy := irVec_beforeProjection h sf lm k (perspZ g k) (divide (planeH g) (perspSz g k).toNat) .l2
  have hkeeps := keeps_beforeProjection h sf lm k (perspZ g k) (divide (planeH g) (perspSz g k).toNat)
  rw [rtp_eq h, rtpProject_false, hkeeps.control 24 (by decide), hkeeps.control 25 (by decide), perspX, perspY,
    ← hx, ← hy]
  rfl

theorem rtp_true : a.rtp sf lm k true = (a.rtp sf lm k false).storeCue (perspCue g k) := by
  have hkeeps := keeps_beforeProjection h sf lm k (perspZ g k) (divide (planeH g) (perspSz g k).toNat)
  rw [rtp_eq h, rtp_eq h, rtpProject_true, hkeeps.control 27 (by decide), hkeeps.control 28 (by decide),
    s16_eq_lowHalf, perspCue]

theorem flagBits_beforeProjection {f : Nat → Prop} (hf : FlagBits a.flag f) :
    FlagBits (a.beforeProjection sf lm k (perspZ g k) (divide (planeH g) (perspSz g k).toNat)).flag fun n =>
      ((f n ∨ transformFlag g sf lm k n) ∨ (n = 18 ∧ outside (perspZ g k) 0 0xFFFF)) ∨
        (n = 17 ∧ 2 * perspSz g k ≤ planeH g) := by
  have htransform := flagBits_rtpTransform h sf lm k hf
  have hfactor : FlagBits (divide (planeH g) (perspSz g k).toNat).flag fun n =>
      n = 17 ∧ 2 * perspSz g k ≤ planeH g := fun n => by
    have hsz := (perspSz_range g k).1
    rw [divide_flag]
    omega
  rw [beforeProjection_flag]
  exact (htransform.or (flagBits_limD _)).or hfactor

theorem projects_rtp : Projects g a sf lm k (a.rtp sf lm k false) := by
  have htransform := keeps_rtpTransform sf lm k a
  have hbefore := keeps_beforeProjection h sf lm k (perspZ g k) (divide (planeH g) (perspSz g k).toNat)
  have hflag {f : Nat → Prop} (hf : FlagBits a.flag f) := flagBits_beforeProjection h sf lm k hf
  obtain ⟨hmac, hir⟩ := leavesVector_rtpTransform h sf lm k
  rw [rtp_false h]
  generalize hb : a.beforeProjection sf lm k (perspZ g k) (divide (planeH g) (perspSz g k).toNat) = b at hbefore hflag
  have hpush (q : Reg) : b.getD q = ((a.rtpTransform sf lm k).pushSz (trunc32 (limD (perspZ g k)).val)).getD q := by
    rw [← hb, beforeProjection_getD]
  have hkept {q : Reg} (hsz : q ∉ szD) : b.getD q = (a.rtpTransform sf lm k).getD q := by
    rw [← hb, beforeProjection_getD_ne _ _ _ _ _ _ hsz]
  have hlane : ∀ l : Lane, (l.mac ∉ sxyD ∧ l.mac ∉ szD) ∧ l.ir ∉ sxyD ∧ l.ir ∉ szD := by
    intro l
    cases l <;> decide
  constructor
  case vector =>
    refine ⟨fun l => ?_, fun l => ?_⟩
    · obtain ⟨⟨hsxy, hsz⟩, -⟩ := hlane l
      rw [pushPoint_getD_ne _ _ _ hsxy, hkept hsz, hmac]
    · obtain ⟨⟨hsxy, hsz⟩, hsxy', hsz'⟩ := hlane l
      rw [pushPoint_getD_ne _ _ _ hsxy, pushPoint_getD_ne _ _ _ hsxy', hkept hsz, hkept hsz', hir]
  case sz0 =>
    rw [pushPoint_getD_ne _ _ _ (by decide), hpush, pushSz_getD, if_neg (by decide), if_neg (by decide),
      if_neg (by decide), if_pos rfl, htransform.data 17 (by decide)]
  case sz1 =>
    rw [pushPoint_getD_ne _ _ _ (by decide), hpush, pushSz_getD, if_neg (by decide), if_neg (by decide), if_pos rfl,
      htransform.data 18 (by decide)]
  case sz2 =>
    rw [pushPoint_getD_ne _ _ _ (by decide), hpush, pushSz_getD, if_neg (by decide), if_pos rfl,
      htransform.data 19 (by decide)]
  case sz3 =>
    rw [pushPoint_getD_ne _ _ _ (by decide), hpush, pushSz_getD, if_pos rfl, toNat_trunc32_limD, perspSz]
  case sxy0 =>
    rw [pushPoint_getD, if_neg (by decide), if_neg (by decide), if_pos rfl, hkept (by decide),
      htransform.data 13 (by decide)]
  case sxy1 =>
    rw [pushPoint_getD, if_neg (by decide), if_pos rfl, hkept (by decide), htransform.data 14 (by decide)]
  case sxy2 => exact pushPoint_halves ..
  case flag =>
    intro f hf
    refine (flagBits_pushPoint _ _ (hflag hf)).congr fun n => ?_
    simp only [transformFlag, pointFlag, perspFlag, or_assoc]
  case keeps => exact (((hbefore.setD (by decide) _).setD (by decide) _).setD (by decide) _).orFlag _

end

/-! ## The last vertex, and the frame -/

section
variable {g a t u : Gte} {sf lm : Bool} {k : Lane}

/-- Beside the cue, a bank whose data registers are those of `u` after it has the registers of `u`. -/
theorem getD_of_storeCue {v : Int} (ht : ∀ q, t.getD q = (u.storeCue v).getD q) {q : Reg} (h8 : q ≠ 8) (h24 : q ≠ 24) :
    t.getD q = u.getD q := by
  rw [ht, storeCue_getD_ne _ _ h8 h24]

theorem leavesVector_of_storeCue {v : Int} {sum : Lanes} (ht : ∀ q, t.getD q = (u.storeCue v).getD q)
    (h : LeavesVector sf lm sum u) : LeavesVector sf lm sum t := by
  obtain ⟨hmac, hir⟩ := h
  have hne : ∀ l : Lane, (l.mac ≠ 8 ∧ l.mac ≠ 24) ∧ l.ir ≠ 8 ∧ l.ir ≠ 24 := by
    intro l
    cases l <;> decide
  refine ⟨fun l => ?_, fun l => ?_⟩ <;> obtain ⟨⟨hmac8, hmac24⟩, hir8, hir24⟩ := hne l
  · rw [getD_of_storeCue ht hmac8 hmac24, hmac]
  · rw [getD_of_storeCue ht hmac8 hmac24, getD_of_storeCue ht hir8 hir24, hir]

theorem perspLeaves_of_storeCue (ht : ∀ q, t.getD q = (u.storeCue (perspCue g k)).getD q)
    (h : LeavesVector sf lm (perspSum g k) u) : perspLeaves g sf lm k t ∧ irsFollowMacs lm t := by
  obtain ⟨hmac, hir⟩ := leavesVector_of_storeCue ht h
  refine ⟨⟨fun l => ⟨hmac l, ?_⟩, ?_, ?_⟩, hir⟩
  · rw [hir l, hmac l]
    rfl
  · rw [ht, storeCue_mac0]
  · rw [ht, storeCue_ir0]

theorem flagBits_cue {f : Nat → Prop} (h : FlagBits u.flag f) :
    FlagBits (u.storeCue (perspCue g k)).flag fun n => f n ∨ cueFlag g k n :=
  (flagBits_storeCue _ h).congr fun n => by simp only [mac0Flag, cueFlag, or_assoc]

end

/-! ## The obligation -/

/-- Settles O46: one vertex projected, then its cue. -/
theorem perspectiveResults : Obligations.PerspectiveResults := by
  intro s sf lm hc g
  have hstart : Keeps perspD g (g.setC 31 0) := (keeps_clearedFlag g).mono (List.nil_subset _)
  have hp := projects_rtp hstart sf lm .l1
  have hbody : gteRtps sf lm (g.setC 31 0) =
      ((g.setC 31 0).rtp sf lm .l1 false).storeCue (perspCue g .l1) := rtp_true hstart sf lm .l1
  generalize (g.setC 31 0).rtp sf lm .l1 false = u at hp hbody
  have ht (q : Reg) : (g.frame (gteRtps sf lm)).getD q = (u.storeCue (perspCue g .l1)).getD q := by
    rw [frame_getD, hbody]
  have hflag := flagBits_cue (g := g) (k := .l1) (hp.flag _ (flagBits_of_eq_zero (clearedFlag_flag g)))
  rw [← hbody] at hflag
  obtain ⟨hleaves, hir⟩ := perspLeaves_of_storeCue ht hp.vector
  have hkept {q : Reg} (h8 : q ≠ 8) (h24 : q ≠ 24) := getD_of_storeCue ht h8 h24
  refine commands_of_exec rfl hc ⟨hleaves, hir, ?_, ?_, ?_, ?_, ?_, ?_, ?_,
    flagIs_frame g (fun g => commandWrites_rtp lm g sf .l1 true) (hflag.congr fun n => ?_)⟩
  · exact (hkept (by decide) (by decide)).trans hp.sz0
  · exact (hkept (by decide) (by decide)).trans hp.sz1
  · exact (hkept (by decide) (by decide)).trans hp.sz2
  · rw [hkept (by decide) (by decide)]
    exact hp.sz3
  · exact (hkept (by decide) (by decide)).trans hp.sxy0
  · exact (hkept (by decide) (by decide)).trans hp.sxy1
  · rw [hkept (by decide) (by decide)]
    exact hp.sxy2
  · rw [false_or]

end Sys2Proof.Machine
end

section
/-! The commands that push: colours of one vertex, of three, and the three vertices of RTPT (46_gte_commands.md
R503-R515, R518-R521). -/

namespace Sys2Proof.Machine

/-! ## One colour -/

section
variable (g : Gte) (sf lm : Bool)

theorem pushes_dpcs :
    Pushes g (g.setC 31 0) sf lm (cueSum g sf fun l => bytesAt (g.getD 6) l * 65536) (gteDpcs sf lm (g.setC 31 0)) :=
  pushes_depthCue (keeps_colour_start g) (g.getD 6)

theorem pushes_intpl :
    Pushes g (g.setC 31 0) sf lm (cueSum g sf fun l => irsAt g l * 4096) (gteIntpl sf lm (g.setC 31 0)) := by
  have hpush := pushes_interp (sf := sf) (lm := lm) (keeps_colour_start g) (Keeps.refl vectorD (g.setC 31 0))
    fun l => irsAt g l * 4096
  simp only [← irVec_irsAt] at hpush ⊢
  exact hpush

theorem pushes_dcpl :
    Pushes g (g.setC 31 0) sf lm (cueSum g sf (tint g (irsAt g))) (gteDcpl sf lm (g.setC 31 0)) := by
  have hpush := pushes_colourDepth (sf := sf) (lm := lm) (keeps_colour_start g) (Keeps.refl vectorD (g.setC 31 0))
  rw [(keeps_clearedFlag g).irsAt] at hpush
  exact hpush

/-- The IR vector the light colour step of CC and CDP leaves (R507, R510). -/
theorem irsAt_irLight : irsAt ((g.setC 31 0).irLight sf lm) = irsOf sf lm (irLightSum g) := by
  have hkeeps := keeps_clearedFlag g
  rw [irsAt_of_leavesVector (leavesVector_irLight (g.setC 31 0)), irLightSum, irLightSum, hkeeps.matrixAt (by decide),
    hkeeps.wordsAt (by decide), hkeeps.irsAt]

theorem keeps_irLight (a : Gte) : Keeps vectorD a (a.irLight sf lm) :=
  ((Keeps.refl _ a).mulMV (List.Subset.refl _) sf _ _ _).macToIr (List.Subset.refl _) lm

theorem pushes_cc :
    Pushes g (g.setC 31 0) sf lm (tintSum g (irsOf sf lm (irLightSum g))) (gteCc sf lm (g.setC 31 0)) := by
  rw [← irsAt_irLight]
  exact pushes_colourOnly (keeps_colour_start g) (keeps_irLight sf lm _)

theorem pushes_cdp :
    Pushes g (g.setC 31 0) sf lm (cueSum g sf (tint g (irsOf sf lm (irLightSum g)))) (gteCdp sf lm (g.setC 31 0)) := by
  rw [← irsAt_irLight]
  exact pushes_colourDepth (keeps_colour_start g) (keeps_irLight sf lm _)

end

/-! ## Three colours -/

section
variable (g : Gte) (sf lm : Bool)

theorem pushesThree_nct : PushesThree g sf lm (lightSum g sf lm) (gteNct sf lm (g.setC 31 0)) :=
  pushesThree_eachVertex (fun _ k ha => pushes_normalLight ha k) (keeps_colour_start g)

theorem pushesThree_ncct :
    PushesThree g sf lm (fun k => tintSum g (irsOf sf lm (lightSum g sf lm k))) (gteNcct sf lm (g.setC 31 0)) :=
  pushesThree_eachVertex (fun _ k ha => pushes_normalColour ha k) (keeps_colour_start g)

theorem pushesThree_ncdt :
    PushesThree g sf lm (fun k => cueSum g sf (tint g (irsOf sf lm (lightSum g sf lm k))))
      (gteNcdt sf lm (g.setC 31 0)) :=
  pushesThree_eachVertex (fun _ k ha => pushes_normalDepth ha k) (keeps_colour_start g)

theorem pushesThree_dpct :
    PushesThree g sf lm (fun k => cueSum g sf fun l => bytesAt (g.getD (fifoReg k)) l * 65536)
      (gteDpct sf lm (g.setC 31 0)) :=
  pushesThree_depthCueFifo (keeps_clearedFlag g)

end

/-! ## The commands, from what their bodies push -/

section
variable {i : Instr} {c : GteCmd} {s : State} {body : Gte → Gte} {sf lm : Bool}

theorem commands_of_pushes {sum : Lanes} (hexec : exec i s = gteCommand c body s)
    (h : Pushes s.gte (s.gte.setC 31 0) sf lm sum (body (s.gte.setC 31 0))) (hc : c ∈ s.cfg.gteImplemented) :
    Commands i s fun t =>
      (∀ l : Lane, t.getD l.mac = macWord sf (sum l)) ∧ irsFollowMacs lm t ∧
        t.getD 20 = s.gte.getD 21 ∧ t.getD 21 = s.gte.getD 22 ∧ colourOfSum s.gte sf sum (t.getD 22) := by
  have hframe := h.frame
  obtain ⟨hmac, hir⟩ := hframe.vector
  exact commands_of_exec hexec hc ⟨hmac, hir, hframe.rgb0, hframe.rgb1, hframe.rgb2⟩

theorem commands_of_pushesThree {sum : Lane → Lanes} (hexec : exec i s = gteCommand c body s)
    (h : PushesThree s.gte sf lm sum (body (s.gte.setC 31 0))) (hc : c ∈ s.cfg.gteImplemented) :
    Commands i s fun t =>
      (∀ l : Lane, t.getD l.mac = macWord sf (sum .l3 l)) ∧ irsFollowMacs lm t ∧
        colourOfSum s.gte sf (sum .l1) (t.getD 20) ∧ colourOfSum s.gte sf (sum .l2) (t.getD 21) ∧
        colourOfSum s.gte sf (sum .l3) (t.getD 22) := by
  have hframe := h.frame
  obtain ⟨hmac, hir⟩ := hframe.vector
  exact commands_of_exec hexec hc ⟨hmac, hir, hframe.rgb0, hframe.rgb1, hframe.rgb2⟩

end

/-! ## RTPT -/

section
variable {g a t u v : Gte} {sf lm : Bool}

/-- Three vertices projected one after the other, and the cue of the third. -/
def perspThreeFlag (g : Gte) (sf lm : Bool) (n : Nat) : Prop :=
  (∃ k : Lane, perspFlag g sf lm k n) ∨ cueFlag g .l3 n

theorem flagBits_projectsThree (ha : a.flag = 0) (h1 : Projects g a sf lm .l1 t) (h2 : Projects g t sf lm .l2 u)
    (h3 : Projects g u sf lm .l3 v) :
    FlagBits (v.storeCue (perspCue g .l3)).flag (perspThreeFlag g sf lm) := by
  have hvertices := h3.flag _ (h2.flag _ (h1.flag _ (flagBits_of_eq_zero ha)))
  refine (flagBits_cue hvertices).congr fun n => or_congr_left ?_
  rw [exists_lane, false_or, or_assoc]

theorem commandWrites_rtpt (g : Gte) : CommandWrites lm g (gteRtpt sf lm g) :=
  ((commandWrites_rtp lm g sf .l1 false).trans (commandWrites_rtp lm _ sf .l2 false)).trans
    (commandWrites_rtp lm _ sf .l3 true)

/-- RTPT's body, the cue apart. -/
theorem gteRtpt_projects (g : Gte) (sf lm : Bool) :
    ∃ t u v, Projects g (g.setC 31 0) sf lm .l1 t ∧ Projects g t sf lm .l2 u ∧ Projects g u sf lm .l3 v ∧
      gteRtpt sf lm (g.setC 31 0) = v.storeCue (perspCue g .l3) := by
  have h1 := projects_rtp ((keeps_clearedFlag g).mono (List.nil_subset _)) sf lm .l1
  have h2 := projects_rtp h1.keeps sf lm .l2
  exact ⟨_, _, _, h1, h2, projects_rtp h2.keeps sf lm .l3, rtp_true h2.keeps sf lm .l3⟩

theorem commands_rtpt {s : State} (hc : GteCmd.rtpt ∈ s.cfg.gteImplemented) :
    Commands (.gteRtpt sf lm) s fun t =>
      perspLeaves s.gte sf lm .l3 t ∧ irsFollowMacs lm t ∧
      t.getD 16 = s.gte.getD 19 ∧ ((t.getD 17).toNat : Int) = perspSz s.gte .l1 ∧
      ((t.getD 18).toNat : Int) = perspSz s.gte .l2 ∧ ((t.getD 19).toNat : Int) = perspSz s.gte .l3 ∧
      screenPoint s.gte sf lm .l1 (t.getD 12) ∧ screenPoint s.gte sf lm .l2 (t.getD 13) ∧
      screenPoint s.gte sf lm .l3 (t.getD 14) ∧
      flagIs t (perspThreeFlag s.gte sf lm) := by
  obtain ⟨t, u, v, h1, h2, h3, hbody⟩ := gteRtpt_projects s.gte sf lm
  have hframe (q : Reg) : (s.gte.frame (gteRtpt sf lm)).getD q = (v.storeCue (perspCue s.gte .l3)).getD q := by
    rw [frame_getD, hbody]
  have hflag := flagBits_projectsThree (clearedFlag_flag s.gte) h1 h2 h3
  rw [← hbody] at hflag
  obtain ⟨hleaves, hir⟩ := perspLeaves_of_storeCue hframe h3.vector
  have hkept {q : Reg} (h8 : q ≠ 8) (h24 : q ≠ 24) := getD_of_storeCue hframe h8 h24
  refine commands_of_exec rfl hc ⟨hleaves, hir, ?_, ?_, ?_, ?_, ?_, ?_, ?_,
    flagIs_frame s.gte commandWrites_rtpt hflag⟩ <;> rw [hkept (by decide) (by decide)]
  · rw [h3.sz0, h2.sz1, h1.sz2]
    rfl
  · rw [h3.sz1, h2.sz2, h1.sz3]
  · rw [h3.sz2, h2.sz3]
  · exact h3.sz3
  · rw [h3.sxy0, h2.sxy1]
    exact h1.sxy2
  · rw [h3.sxy1]
    exact h2.sxy2
  · exact h3.sxy2

end

/-! ## The obligations -/

/-- Settles O47: each command's body is one push or three, RTPT's three projections and a cue. -/
theorem fifoPushes : Obligations.FifoPushes := by
  intro s sf lm g
  have hstart := keeps_colour_start g
  exact ⟨commands_of_pushes rfl (pushes_dpcs g sf lm), commands_of_pushes rfl (pushes_intpl g sf lm),
    commands_of_pushes rfl (pushes_dcpl g sf lm), commands_of_pushes rfl (pushes_normalLight hstart .l1),
    commands_of_pushes rfl (pushes_normalColour hstart .l1), commands_of_pushes rfl (pushes_normalDepth hstart .l1),
    commands_of_pushes rfl (pushes_cc g sf lm), commands_of_pushes rfl (pushes_cdp g sf lm),
    commands_of_pushes rfl (pushes_gpf g sf lm), commands_of_pushes rfl (pushes_gpl g sf lm),
    commands_of_pushesThree rfl (pushesThree_nct g sf lm), commands_of_pushesThree rfl (pushesThree_ncct g sf lm),
    commands_of_pushesThree rfl (pushesThree_ncdt g sf lm), commands_of_pushesThree rfl (pushesThree_dpct g sf lm),
    commands_rtpt⟩

end Sys2Proof.Machine
end

section
/-! The depth cue with IR0 = 0 (46_gte_commands.md R489): it adds nothing to its bases. What a push leaves is determined
by its sums, so two commands that push the same sums leave the same data registers. -/

namespace Sys2Proof.Machine

/-! ## A push is determined by its sums -/

section
variable {g a : Gte} {sf lm : Bool} {sum : Lanes} {t u : Gte}

theorem leavesVector_unique (ht : LeavesVector sf lm sum t) (hu : LeavesVector sf lm sum u) (l : Lane) :
    t.getD l.mac = u.getD l.mac ∧ t.getD l.ir = u.getD l.ir := by
  obtain ⟨htmac, htir⟩ := ht
  obtain ⟨humac, huir⟩ := hu
  have hmac : t.getD l.mac = u.getD l.mac := (htmac l).trans (humac l).symm
  refine ⟨hmac, BitVec.eq_of_toInt_eq ?_⟩
  rw [htir, huir, hmac]

theorem colourOfSum_unique {v w : Word} (hv : colourOfSum g sf sum v) (hw : colourOfSum g sf sum w) : v = w := by
  obtain ⟨hvbytes, hvcode⟩ := hv
  obtain ⟨hwbytes, hwcode⟩ := hw
  have hbyte (l : Lane) : byteOf v (l.index - 1) = byteOf w (l.index - 1) :=
    BitVec.eq_of_toNat_eq (Int.ofNat_inj.1 ((hvbytes l).trans (hwbytes l).symm))
  refine word_ext_bytes fun j hj => ?_
  interval_cases j
  · exact hbyte .l1
  · exact hbyte .l2
  · exact hbyte .l3
  · exact hvcode.trans hwcode.symm

/-- Banks that agree on what a push writes, and keep the rest. -/
theorem getD_eq_of_colourD (hvector : ∀ l : Lane, t.getD l.mac = u.getD l.mac ∧ t.getD l.ir = u.getD l.ir)
    (h20 : t.getD 20 = u.getD 20) (h21 : t.getD 21 = u.getD 21) (h22 : t.getD 22 = u.getD 22)
    (ht : Keeps colourD g t) (hu : Keeps colourD g u) (n : Reg) : t.getD n = u.getD n := by
  by_cases hn : n ∈ colourD
  · simp only [colourD, List.mem_cons, List.not_mem_nil, or_false] at hn
    obtain rfl | rfl | rfl | rfl | rfl | rfl | rfl | rfl | rfl := hn
    exacts [(hvector .l1).2, (hvector .l2).2, (hvector .l3).2, h20, h21, h22, (hvector .l1).1, (hvector .l2).1,
      (hvector .l3).1]
  · rw [ht.data n hn, hu.data n hn]

theorem getD_eq_of_pushes (ht : Pushes g a sf lm sum t) (hu : Pushes g a sf lm sum u) (n : Reg) :
    t.getD n = u.getD n :=
  getD_eq_of_colourD (leavesVector_unique ht.vector hu.vector) (ht.rgb0.trans hu.rgb0.symm)
    (ht.rgb1.trans hu.rgb1.symm) (colourOfSum_unique ht.rgb2 hu.rgb2) ht.keeps hu.keeps n

theorem getD_eq_of_pushesThree {sum : Lane → Lanes} (ht : PushesThree g sf lm sum t) (hu : PushesThree g sf lm sum u)
    (n : Reg) : t.getD n = u.getD n :=
  getD_eq_of_colourD (leavesVector_unique ht.vector hu.vector) (colourOfSum_unique ht.rgb0 hu.rgb0)
    (colourOfSum_unique ht.rgb1 hu.rgb1) (colourOfSum_unique ht.rgb2 hu.rgb2) ht.keeps hu.keeps n

end

/-- Two commands whose bodies leave the same data registers. -/
theorem exec_sameData {i j : Instr} {c c' : GteCmd} {s : State} {body body' : Gte → Gte}
    (hexec : exec i s = gteCommand c body s) (hexec' : exec j s = gteCommand c' body' s)
    (hc : c ∈ s.cfg.gteImplemented) (hc' : c' ∈ s.cfg.gteImplemented)
    (h : ∀ n, (s.gte.frame body).getD n = (s.gte.frame body').getD n) :
    ∃ t u, exec i s = .next t ∧ exec j s = .next u ∧ t.gte.d = u.gte.d :=
  ⟨_, _, hexec.trans (gteCommand_implemented hc body), hexec'.trans (gteCommand_implemented hc' body'),
    Vector.ext fun n hn => h ⟨n, hn⟩⟩

/-! ## IR0 = 0 -/

section
variable {g : Gte} (hzero : (g.getD 8).extractLsb' 0 16 = 0) (sf : Bool)
include hzero

theorem cueSum_of_ir0_zero (base : Lanes) (l : Lane) : cueSum g sf base l = wrapped44 (base l) := by
  have hir0 : lowHalf (g.getD 8) = 0 := by
    rw [← s16_eq_lowHalf, s16, hzero]
    rfl
  simp only [cueSum, hir0, mul_zero, zero_add, wrapped44]
  omega

theorem cueSum_tint_of_ir0_zero (ir : Lanes) : cueSum g sf (tint g ir) = tintSum g ir :=
  funext (cueSum_of_ir0_zero hzero sf (tint g ir))

/-- A base within the 44-bit range is what the cue leaves. -/
theorem macWord_cueSum_of_ir0_zero {base : Lanes} {l : Lane} (hlow : -2 ^ 43 ≤ base l) (hhigh : base l < 2 ^ 43) :
    macWord sf (cueSum g sf base l) = BitVec.ofInt 32 (if sf then base l / 4096 else base l) := by
  rw [cueSum_of_ir0_zero hzero, wrapped44_of_range hlow hhigh]
  rfl

theorem macWord_cueSum_colour (w : Word) (l : Lane) :
    macWord sf (cueSum g sf (fun l => bytesAt w l * 65536) l) =
      BitVec.ofInt 32 (if sf then bytesAt w l * 65536 / 4096 else bytesAt w l * 65536) := by
  have hbyte : 0 ≤ bytesAt w l ∧ bytesAt w l < 256 := ⟨Int.natCast_nonneg _, Int.ofNat_lt.2 (BitVec.isLt _)⟩
  exact macWord_cueSum_of_ir0_zero hzero sf (base := fun l => bytesAt w l * 65536) (by omega) (by omega)

theorem macWord_cueSum_irs (l : Lane) :
    macWord sf (cueSum g sf (fun l => irsAt g l * 4096) l) =
      BitVec.ofInt 32 (if sf then s16 (g.getD l.ir) * 4096 / 4096 else s16 (g.getD l.ir) * 4096) := by
  have hir := s16_range (g.getD l.ir)
  have hbase : irsAt g l = s16 (g.getD l.ir) := (s16_eq_lowHalf _).symm
  rw [macWord_cueSum_of_ir0_zero hzero sf (by rw [hbase]; omega) (by rw [hbase]; omega), hbase]

end

/-- Settles O48: with IR0 = 0 the sums of a cue are its bases, wrapped. -/
theorem depthCueWithZeroFactor : Obligations.DepthCueWithZeroFactor := by
  intro s sf lm hzero himpl shift colour
  refine ⟨commands_of_exec rfl (himpl .dpcs) fun l => ?dpcs, commands_of_exec rfl (himpl .dpct) fun l => ?dpct,
    commands_of_exec rfl (himpl .intpl) fun l => ?intpl,
    exec_sameData rfl rfl (himpl .ncds) (himpl .nccs) ?ncds, exec_sameData rfl rfl (himpl .cdp) (himpl .cc) ?cdp,
    exec_sameData rfl rfl (himpl .ncdt) (himpl .ncct) ?ncdt⟩
  case dpcs =>
    exact ((pushes_dpcs s.gte sf lm).frame.vector.1 l).trans (macWord_cueSum_colour hzero sf _ l)
  case dpct =>
    exact ((pushesThree_dpct s.gte sf lm).frame.vector.1 l).trans (macWord_cueSum_colour hzero sf _ l)
  case intpl =>
    exact ((pushes_intpl s.gte sf lm).frame.vector.1 l).trans (macWord_cueSum_irs hzero sf l)
  case ncds =>
    have hdepth := pushes_normalDepth (sf := sf) (lm := lm) (keeps_colour_start s.gte) .l1
    rw [cueSum_tint_of_ir0_zero hzero] at hdepth
    exact getD_eq_of_pushes (hdepth.frame (body := gteNcds sf lm))
      ((pushes_normalColour (keeps_colour_start s.gte) .l1).frame (body := gteNccs sf lm))
  case cdp =>
    have hdepth := pushes_cdp s.gte sf lm
    rw [cueSum_tint_of_ir0_zero hzero] at hdepth
    exact getD_eq_of_pushes (hdepth.frame (body := gteCdp sf lm)) ((pushes_cc s.gte sf lm).frame (body := gteCc sf lm))
  case ncdt =>
    have hdepth := pushesThree_ncdt s.gte sf lm
    simp only [cueSum_tint_of_ir0_zero hzero] at hdepth
    exact getD_eq_of_pushesThree (hdepth.frame (body := gteNcdt sf lm))
      ((pushesThree_ncct s.gte sf lm).frame (body := gteNcct sf lm))

end Sys2Proof.Machine
end
